-- ==== Sys2Proof/Word.lean ====
section
/-! DEFINITION. The value types of the block's interfaces (`00_scope.md` R9) and its fixed-length byte buffers
(`10_state.md` R41, R42): a buffer's length is a fact of its type, so no index of the codec can fall outside one (R66). -/

namespace Sys2Proof

/-- One byte on the wire (`20_memory.md` R61). -/
abbrev Byte := BitVec 8

/-- `u8`, `u16`, `u32` of `00_scope.md` R9. -/
abbrev U8 := BitVec 8
abbrev U16 := BitVec 16
abbrev U32 := BitVec 32

/-- `i32` of `00_scope.md` R9: 32 bits in two's complement; the integer is `toInt`. -/
abbrev I32 := BitVec 32

/-- `Dev` of `10_state.md` R41: a device index, `[0, CHAIN_SIZE) = {0, 1}`; an axis index in range is one too (R26). -/
abbrev Dev := Fin 2

/-- The transport's error value (`60_exceptions.md` R261, `93_implementation_defined.md` I12): opaque, passed on unchanged.
A number stands for it; the block never inspects it. -/
abbrev TransportErr := Nat

/-- A frame: `FRAME_SIZE = 4` bytes, `b0` first on the wire (`10_state.md` R42, `30_encoding.md` R82). -/
structure Frame where
  b0 : Byte
  b1 : Byte
  b2 : Byte
  b3 : Byte
  deriving DecidableEq, Repr, Inhabited

/-- A `ChainBuf`: `PHASE_LEN = 8` bytes, the frame of device `d` at `[4d, 4d+4)` (`20_memory.md` R63). -/
structure ChainBuf where
  slot0 : Frame
  slot1 : Frame
  deriving DecidableEq, Repr, Inhabited

/-- A `ReadBuf`: `READ_LEN = 16` bytes, the opcode phase `[0, 8)` and then the clock-out phase `[8, 16)` (`20_memory.md` R63). -/
structure ReadBuf where
  opcodePhase : ChainBuf
  clockOut : ChainBuf
  deriving DecidableEq, Repr, Inhabited

/-- A buffer handed to `Transceive`: of `PHASE_LEN` or of `READ_LEN` bytes; "no other length occurs" (`20_memory.md` R67). -/
inductive Buf where
  | phase (cb : ChainBuf)
  | read (rb : ReadBuf)
  deriving DecidableEq, Repr

end Sys2Proof
end

