-- ==== Sys2Proof/Config.lean ====
section
/-! DEFINITION. The parameters of `00_scope.md` R7 and the free values of `60_exceptions.md` R273.
The opcode and register-address parameters are the record `Codes` (log entry 1); with the parameters the spec marks OPEN they
make the record `Params`, which the state carries and no step changes (log entry 2).
The free values have no body: nothing can be proved of what they are (log entries 4 and 5). -/

namespace Sys2Proof

namespace Config

/-- `CHAIN_SIZE`, `FRAME_SIZE`, `PHASE_LEN`, `READ_LEN`, `N_AXES` (R7). -/
def chainSize : Nat := 2
def frameSize : Nat := 4
def phaseLen : Nat := frameSize * chainSize
def readLen : Nat := 2 * frameSize * chainSize
def nAxes : Nat := 2

/-- The two opcode values the source fixes (R7, from the examples of §8); every other one is a field of `Codes`. -/
def opcRun : Byte := 0x50#8
def opcMove : Byte := 0x40#8

/-- `DEFAULT_MAX_SPEED`, the global default ceiling of `run` (R7, decision D8). -/
def defaultMaxSpeed : Nat := 1000

end Config

/-- A MotorModel (`10_state.md` R28, the extended variant). `ratedVoltage` and `holdingTorque` are opaque to the block;
a number stands for each (log entry 3). -/
structure MotorModel where
  name : String
  stepsPerRev : U32
  maxSpeed : U32
  maxCurrentMa : U32
  maxMicrostep : U32
  ratedVoltage : Nat
  holdingTorque : Nat
  microstep : I32
  kvalRun : U8
  kvalAcc : U8
  kvalDec : U8
  kvalHold : U8
  ocdThresholdMa : U32
  stallThresholdMa : U32
  acc : U32
  dec : U32
  deriving DecidableEq, Repr, Inhabited

/-- The opcode and register-address parameters of R7 (decision D1, `93_implementation_defined.md` I1, G1, G2): every opcode but
those of RUN and MOVE, and every register address. -/
structure Codes where
  opcNop : Byte
  opcGetStatus : Byte
  opcGetParam : Byte
  opcSetParam : Byte
  opcGoto : Byte
  opcGotoDir : Byte
  opcGoHome : Byte
  opcResetPos : Byte
  opcSoftStop : Byte
  opcHardStop : Byte
  opcSoftHiz : Byte
  opcHardHiz : Byte
  regAbsPos : Byte
  regAcc : Byte
  regDec : Byte
  regMaxSpeed : Byte
  regKvalHold : Byte
  regKvalRun : Byte
  regKvalAcc : Byte
  regKvalDec : Byte
  regOcdTh : Byte
  regStallTh : Byte
  regStepMode : Byte
  deriving DecidableEq, Repr

/-- The opcode byte of a GET_PARAM of ABS_POS (`30_encoding.md` R90). -/
def Codes.opcGetAbsPos (c : Codes) : Byte := c.opcGetParam ||| c.regAbsPos

/-- The opcode bytes of the frames sent in one slot of an 8-byte buffer (R88), in the order of R91's map. -/
def Codes.singleOpcodes (c : Codes) : List Byte :=
  [c.opcNop, c.opcSetParam ||| c.regAcc, c.opcSetParam ||| c.regDec, c.opcSetParam ||| c.regMaxSpeed,
   c.opcSetParam ||| c.regKvalHold, c.opcSetParam ||| c.regKvalRun, c.opcSetParam ||| c.regKvalAcc,
   c.opcSetParam ||| c.regKvalDec, c.opcSetParam ||| c.regOcdTh, c.opcSetParam ||| c.regStallTh,
   c.opcSetParam ||| c.regStepMode, Config.opcMove, Config.opcMove ||| 1#8, Config.opcRun, Config.opcRun ||| 1#8,
   c.opcGoto, c.opcGotoDir, c.opcGotoDir ||| 1#8, c.opcGoHome, c.opcSoftHiz, c.opcHardHiz, c.opcSoftStop, c.opcHardStop,
   c.opcResetPos]

/-- The 26 opcode bytes the block emits (R91). -/
def Codes.emittedOpcodes (c : Codes) : List Byte := c.opcGetStatus :: c.opcGetAbsPos :: c.singleOpcodes

/-- The register addresses. -/
def Codes.registers (c : Codes) : List Byte :=
  [c.regAbsPos, c.regAcc, c.regDec, c.regMaxSpeed, c.regKvalHold, c.regKvalRun, c.regKvalAcc, c.regKvalDec, c.regOcdTh,
   c.regStallTh, c.regStepMode]

/-- The constraints of R8 and decision D1: the direction opcodes have bit 0 clear, register addresses are at most 0x1F, and the
26 emitted opcode bytes are distinct. A configuration that breaks them is one the spec refuses (I8). -/
def Codes.legal (c : Codes) : Bool :=
  !c.opcGotoDir.getLsbD 0 && c.registers.all (fun r => decide (r.toNat ≤ 0x1F)) && decide c.emittedOpcodes.Nodup

/-- The parameters of R7 a model takes as arguments: the opcode and address values, and those marked OPEN, `MAX_MOVE_STEPS`,
`CATALOG`, `HAS_POWER_PIN`, `T_RESET_LOW_MS`, `T_RESET_HIGH_MS`. -/
structure Params where
  codes : Codes
  maxMoveSteps : U32
  catalog : List MotorModel
  hasPowerPin : Bool
  tResetLowMs : Nat
  tResetHighMs : Nat
  deriving DecidableEq, Repr

/-- The constraints of R7 and R8 on the parameters: legal codes, a non-empty catalog whose `count()` is a u32
(`60_exceptions.md` R268, log entry 18), reset times no shorter than 10 and 5 ms. -/
def Params.legal (p : Params) : Bool :=
  p.codes.legal && !p.catalog.isEmpty && decide (p.catalog.length < 2 ^ 32) && decide (10 ≤ p.tResetLowMs) && decide (5 ≤ p.tResetHighMs)

/-- An answer of the transport to one `Transceive` (`20_memory.md` R65): `READ_LEN` received bytes, of which a transfer of
`PHASE_LEN` bytes takes the first 8, or an error. Every answer of the right length is one of these, and no other is. -/
inductive Answer where
  | ok (rx : ReadBuf)
  | err (e : TransportErr)
  deriving DecidableEq, Repr, Inhabited

/-- A choice of the scheduler at a step boundary (`20_memory.md` R70, `93_implementation_defined.md` I15): which caller steps;
and whether it runs ONE line of its operation, or takes its next call and runs it to its end with no other caller in between
(log entry 6). -/
structure Pick where
  caller : Nat
  whole : Bool
  deriving DecidableEq, Repr, Inhabited

namespace Config

/-- The free draws of R273, one function a port, applied to the number of free draws made at that port before. -/
opaque freeAnswer : Nat → Answer
opaque freeTransportReady : Nat → Bool
opaque freeResetPinReady : Nat → Bool
opaque freePowerPinReady : Nat → Bool
/-- How many `Deadline()` queries of one wait answer false before the first that answers true (R269, log entry 8). -/
opaque freeDeadline : Nat → Nat
/-- The scheduler's free choice (I15). -/
opaque freePick : Nat → Pick

/-- REF and SMALL of `95_test_vectors.md` section 0; the fields that section omits, which no rule reads, are 0. -/
def refModel : MotorModel :=
  { name := "REF", stepsPerRev := 0, maxSpeed := 1000, maxCurrentMa := 0, maxMicrostep := 0, ratedVoltage := 0
    holdingTorque := 0, microstep := 16, kvalRun := 24, kvalAcc := 24, kvalDec := 24, kvalHold := 16
    ocdThresholdMa := 1500, stallThresholdMa := 800, acc := 1500, dec := 1500 }
def smallModel : MotorModel :=
  { name := "SMALL", stepsPerRev := 0, maxSpeed := 200, maxCurrentMa := 0, maxMicrostep := 0, ratedVoltage := 0
    holdingTorque := 0, microstep := 8, kvalRun := 32, kvalAcc := 32, kvalDec := 32, kvalHold := 32
    ocdThresholdMa := 750, stallThresholdMa := 400, acc := 500, dec := 500 }

/-- The reference values of R7 and R91, which the spec takes from general knowledge of the L6470. The opcode table is written
in them (log entry 1). -/
def refCodes : Codes :=
  { opcNop := 0x00#8, opcGetStatus := 0xD0#8, opcGetParam := 0x20#8, opcSetParam := 0x00#8, opcGoto := 0x60#8
    opcGotoDir := 0x68#8, opcGoHome := 0x70#8, opcResetPos := 0xD8#8, opcSoftStop := 0xB0#8, opcHardStop := 0xB8#8
    opcSoftHiz := 0xA0#8, opcHardHiz := 0xA8#8
    regAbsPos := 0x01#8, regAcc := 0x05#8, regDec := 0x06#8, regMaxSpeed := 0x07#8, regKvalHold := 0x09#8
    regKvalRun := 0x0A#8, regKvalAcc := 0x0B#8, regKvalDec := 0x0C#8, regOcdTh := 0x13#8, regStallTh := 0x14#8
    regStepMode := 0x16#8 }

/-- The reference configuration of `95_test_vectors.md` section 0 (log entry 2). -/
def refParams : Params :=
  { codes := refCodes, maxMoveSteps := 100000, catalog := [refModel, smallModel], hasPowerPin := true, tResetLowMs := 10, tResetHighMs := 5 }

end Config

end Sys2Proof
end

