-- ==== Sys2Proof/Syntax.lean ====
section
/-! DEFINITION. The one inductive of instructions: one constructor for each row of the opcode table.
The first 26 are the wire frames the block emits (`30_encoding.md` R91), each with the fields its format gives it;
the other 41 are the host operations (R94), with R94's operands. -/

namespace Sys2Proof

/-- An instruction: a wire frame of R91, or a host operation of R94 (`30_encoding.md` R80). -/
inductive Instr where
  -- Wire frames: formats NOARG, REG8, REG16, DIR20, DIR22, ABS22 (R83 to R87).
  | frameNop
  | frameSetParamAcc (value : BitVec 16)
  | frameSetParamDec (value : BitVec 16)
  | frameSetParamMaxSpeed (value : BitVec 16)
  | frameSetParamKvalHold (value : BitVec 8)
  | frameSetParamKvalRun (value : BitVec 8)
  | frameSetParamKvalAcc (value : BitVec 8)
  | frameSetParamKvalDec (value : BitVec 8)
  | frameSetParamOcdTh (value : BitVec 8)
  | frameSetParamStallTh (value : BitVec 8)
  | frameSetParamStepMode (value : BitVec 8)
  | frameGetParamAbsPos
  | frameMove0 (steps : BitVec 22)
  | frameMove1 (steps : BitVec 22)
  | frameRun0 (speed : BitVec 20)
  | frameRun1 (speed : BitVec 20)
  | frameGoto (absPos : BitVec 22)
  | frameGotoDir0 (absPos : BitVec 22)
  | frameGotoDir1 (absPos : BitVec 22)
  | frameGoHome
  | frameSoftHiz
  | frameHardHiz
  | frameSoftStop
  | frameHardStop
  | frameGetStatus
  | frameResetPos
  -- FrameCodec (`40_frame_codec.md`).
  | packRun (dev : Dev) (dir : U8) (speedRaw : U32)
  | packMove (dev : Dev) (dir : U8) (stepsRaw : U32)
  | packGoto (dev : Dev) (absPos : I32)
  | packGotoDir (dev : Dev) (dir : U8) (absPos : I32)
  | packNoarg (dev : Dev) (opcode : U8)
  | packGetStatusOpcodes
  | packRegisterWrite1 (dev : Dev) (opcode : U8) (value : U32)
  | packRegisterWrite2 (dev : Dev) (opcode : U8) (value : U32)
  | packRegisterWrite3 (dev : Dev) (opcode : U8) (value : U32)
  | chainSingle (dev : Dev) (frame : Frame)
  | withClockout (cb : ChainBuf)
  | parseStatus (reply : ReadBuf) (dev : Dev)
  | parseParam22 (reply : ReadBuf) (dev : Dev)
  -- RegisterEncoder (`41_register_encoder.md`).
  | encodeMaxSpeed (stepsPerSec : U32)
  | encodeAccDec (stepsPerSec2 : U32)
  | encodeStallThresholdMa (ma : U32)
  | encodeOcdThresholdMa (ma : U32)
  | encodeMicrostepExponent (divisor : I32)
  -- ChainController reads (`42_chain_reads.md`).
  | getStatusAll
  | isBusy (dev : U32)
  | getAbsPos (dev : U32)
  | waitWhileBusy (dev : U32) (timeoutMs : U32) (pollIntervalMs : U32)
  -- Motion commands (`43_motion_admission.md`).
  | run (dev : U32) (dir : U8) (speed : U32)
  | move (dev : U32) (dir : U8) (steps : U32)
  | goto (dev : U32) (absPos : I32)
  | gotoDir (dev : U32) (dir : U8) (absPos : I32)
  | goHome (dev : U32)
  | resetPos (dev : U32)
  | softStop (dev : U32)
  | hardStop (dev : U32)
  | disableOutputs (dev : U32) (hard : Bool)
  -- Initialisation, power, reset, configuration (`44_configuration.md`).
  | init
  | powerEnable
  | powerDisable
  | reset
  | applyModelParams (dev : U32) (model : MotorModel)
  | setActiveModel (axis : U32) (index : U32)
  | setActiveModelByName (axis : U32) (name : String)
  | getActiveModel (axis : U32)
  -- StatusDecoder (`45_status_decoder.md`).
  | decodeCompact (status : U16)
  | decodeVerbose (status : U16)
  deriving DecidableEq, Repr

end Sys2Proof
end

