-- ==== Sys2Proof/WellFormed.lean ====
section
/-! DEFINITION. What the types of `Instr` do not already say of an instruction the block emits or accepts: a register write
carries a value that fits its register's field (`10_state.md` R39, R40; `41_register_encoder.md` R148).
Every other operand is right by its type: a `Dev` is in range (`90_conflicts.md` C6) and a buffer has its length (R42). -/

namespace Sys2Proof

/-- R39's field widths and R148's ranges, as a check on the SET_PARAM frames: ACC and DEC 12 bits, MAX_SPEED 10 bits,
OCD_TH in `[1, 15]`, STALL_TH in `[1, 127]` ("zero is not a legal threshold"), STEP_MODE with bits 7:3 zero. -/
def Instr.wellFormed : Instr → Bool
  | .frameSetParamAcc v => decide (v.toNat ≤ 4095)
  | .frameSetParamDec v => decide (v.toNat ≤ 4095)
  | .frameSetParamMaxSpeed v => decide (v.toNat ≤ 1023)
  | .frameSetParamOcdTh v => decide (1 ≤ v.toNat) && decide (v.toNat ≤ 15)
  | .frameSetParamStallTh v => decide (1 ≤ v.toNat) && decide (v.toNat ≤ 127)
  | .frameSetParamStepMode v => decide (v.toNat ≤ 7)
  | .frameNop | .frameSetParamKvalHold .. | .frameSetParamKvalRun .. | .frameSetParamKvalAcc .. | .frameSetParamKvalDec ..
  | .frameGetParamAbsPos | .frameMove0 .. | .frameMove1 .. | .frameRun0 .. | .frameRun1 .. | .frameGoto ..
  | .frameGotoDir0 .. | .frameGotoDir1 .. | .frameGoHome | .frameSoftHiz | .frameHardHiz | .frameSoftStop
  | .frameHardStop | .frameGetStatus | .frameResetPos => true
  | .packRun .. | .packMove .. | .packGoto .. | .packGotoDir .. | .packNoarg .. | .packGetStatusOpcodes
  | .packRegisterWrite1 .. | .packRegisterWrite2 .. | .packRegisterWrite3 .. | .chainSingle .. | .withClockout ..
  | .parseStatus .. | .parseParam22 .. => true
  | .encodeMaxSpeed .. | .encodeAccDec .. | .encodeStallThresholdMa .. | .encodeOcdThresholdMa ..
  | .encodeMicrostepExponent .. => true
  | .getStatusAll | .isBusy .. | .getAbsPos .. | .waitWhileBusy .. => true
  | .run .. | .move .. | .goto .. | .gotoDir .. | .goHome .. | .resetPos .. | .softStop .. | .hardStop ..
  | .disableOutputs .. => true
  | .init | .powerEnable | .powerDisable | .reset | .applyModelParams .. | .setActiveModel ..
  | .setActiveModelByName .. | .getActiveModel .. => true
  | .decodeCompact .. | .decodeVerbose .. => true

end Sys2Proof
end

