-- ==== Sys2Proof/Decode.lean ====
section
/-! DEFINITION. Frames as bytes and as the 32-bit words of `30_encoding.md` R81, the frame formats of R83 to R87, the decoder
of the opcode table's FRAME32 rows (R91), total on any bytes and rejecting by name, and after it the encoder. -/

namespace Sys2Proof

/-! ### Bytes and words -/

/-- The frame of the word `F = b0 << 24 OR b1 << 16 OR b2 << 8 OR b3` (R81): byte 0 is the most significant. -/
def Frame.ofWord (w : BitVec 32) : Frame :=
  ⟨w.extractLsb' 24 8, w.extractLsb' 16 8, w.extractLsb' 8 8, w.extractLsb' 0 8⟩

/-- The word `F` of a frame (R81). -/
def Frame.toWord (f : Frame) : BitVec 32 := f.b0 ++ f.b1 ++ f.b2 ++ f.b3

/-- The bytes of a buffer in wire order: index `i` is byte `i` on the wire (`20_memory.md` R60). -/
def Frame.toBytes (f : Frame) : List Byte := [f.b0, f.b1, f.b2, f.b3]
def ChainBuf.toBytes (cb : ChainBuf) : List Byte := cb.slot0.toBytes ++ cb.slot1.toBytes
def ReadBuf.toBytes (rb : ReadBuf) : List Byte := rb.opcodePhase.toBytes ++ rb.clockOut.toBytes
def Buf.toBytes : Buf → List Byte
  | .phase cb => cb.toBytes
  | .read rb => rb.toBytes

/-- The frame in slot `d` of a `ChainBuf` (`20_memory.md` R63). -/
def ChainBuf.slot (cb : ChainBuf) (d : Dev) : Frame := if d = 0 then cb.slot0 else cb.slot1

/-! ### The decoder -/

/-- Why bytes are not an instruction of the opcode table (`30_encoding.md` R92). -/
inductive DecodeError where
  /-- Fewer than `FRAME_SIZE` bytes. -/
  | tooShort
  /-- Byte 0 is none of the 26 opcode bytes of R91. -/
  | unknownOpcode (opcode : Byte)
  /-- A bit the opcode's format fixes at 0 is 1. -/
  | reservedBits (frame : Frame)
  deriving DecidableEq, Repr

/-- Format NOARG (R86): bytes 1 to 3 are 0. -/
def decodeNoarg (f : Frame) (i : Instr) : Except DecodeError Instr :=
  if f.b1 = 0#8 ∧ f.b2 = 0#8 ∧ f.b3 = 0#8 then .ok i else .error (.reservedBits f)

/-- Format REG8 (R87): the value in byte 1; bytes 2 and 3 are 0. -/
def decodeReg8 (f : Frame) (mk : BitVec 8 → Instr) : Except DecodeError Instr :=
  if f.b2 = 0#8 ∧ f.b3 = 0#8 then .ok (mk f.b1) else .error (.reservedBits f)

/-- Format REG16 (R87): the value in bytes 1 and 2, big-endian; byte 3 is 0. -/
def decodeReg16 (f : Frame) (mk : BitVec 16 → Instr) : Except DecodeError Instr :=
  if f.b3 = 0#8 then .ok (mk (f.b1 ++ f.b2)) else .error (.reservedBits f)

/-- Format DIR20 (R83): `F[23:20] = 0`, the value in `F[19:0]`. -/
def decodeDir20 (f : Frame) (mk : BitVec 20 → Instr) : Except DecodeError Instr :=
  if f.b1.extractLsb' 4 4 = 0#4 then .ok (mk (f.b1.extractLsb' 0 4 ++ f.b2 ++ f.b3)) else .error (.reservedBits f)

/-- Formats DIR22 and ABS22 (R84, R85): `F[23:22] = 0`, the value in `F[21:0]`. -/
def decodeDir22 (f : Frame) (mk : BitVec 22 → Instr) : Except DecodeError Instr :=
  if f.b1.extractLsb' 6 2 = 0#2 then .ok (mk (f.b1.extractLsb' 0 6 ++ f.b2 ++ f.b3)) else .error (.reservedBits f)

/-- A row of the opcode map: an opcode byte, and how a frame that starts with it is read. -/
structure OpcodeRow where
  opcode : Byte
  read : Frame → Except DecodeError Instr

/-- The opcode map of R91, over the parameters of R7. -/
def opcodeMap (c : Codes) : List OpcodeRow :=
  [⟨c.opcGetStatus, fun f => decodeNoarg f .frameGetStatus⟩,
   ⟨c.opcGetAbsPos, fun f => decodeNoarg f .frameGetParamAbsPos⟩,
   ⟨c.opcNop, fun f => decodeNoarg f .frameNop⟩,
   ⟨c.opcSetParam ||| c.regAcc, fun f => decodeReg16 f .frameSetParamAcc⟩,
   ⟨c.opcSetParam ||| c.regDec, fun f => decodeReg16 f .frameSetParamDec⟩,
   ⟨c.opcSetParam ||| c.regMaxSpeed, fun f => decodeReg16 f .frameSetParamMaxSpeed⟩,
   ⟨c.opcSetParam ||| c.regKvalHold, fun f => decodeReg8 f .frameSetParamKvalHold⟩,
   ⟨c.opcSetParam ||| c.regKvalRun, fun f => decodeReg8 f .frameSetParamKvalRun⟩,
   ⟨c.opcSetParam ||| c.regKvalAcc, fun f => decodeReg8 f .frameSetParamKvalAcc⟩,
   ⟨c.opcSetParam ||| c.regKvalDec, fun f => decodeReg8 f .frameSetParamKvalDec⟩,
   ⟨c.opcSetParam ||| c.regOcdTh, fun f => decodeReg8 f .frameSetParamOcdTh⟩,
   ⟨c.opcSetParam ||| c.regStallTh, fun f => decodeReg8 f .frameSetParamStallTh⟩,
   ⟨c.opcSetParam ||| c.regStepMode, fun f => decodeReg8 f .frameSetParamStepMode⟩,
   ⟨Config.opcMove, fun f => decodeDir22 f .frameMove0⟩,
   ⟨Config.opcMove ||| 1#8, fun f => decodeDir22 f .frameMove1⟩,
   ⟨Config.opcRun, fun f => decodeDir20 f .frameRun0⟩,
   ⟨Config.opcRun ||| 1#8, fun f => decodeDir20 f .frameRun1⟩,
   ⟨c.opcGoto, fun f => decodeDir22 f .frameGoto⟩,
   ⟨c.opcGotoDir, fun f => decodeDir22 f .frameGotoDir0⟩,
   ⟨c.opcGotoDir ||| 1#8, fun f => decodeDir22 f .frameGotoDir1⟩,
   ⟨c.opcGoHome, fun f => decodeNoarg f .frameGoHome⟩,
   ⟨c.opcSoftHiz, fun f => decodeNoarg f .frameSoftHiz⟩,
   ⟨c.opcHardHiz, fun f => decodeNoarg f .frameHardHiz⟩,
   ⟨c.opcSoftStop, fun f => decodeNoarg f .frameSoftStop⟩,
   ⟨c.opcHardStop, fun f => decodeNoarg f .frameHardStop⟩,
   ⟨c.opcResetPos, fun f => decodeNoarg f .frameResetPos⟩]

/-- The instruction of a frame, by the opcode map. -/
def decodeFrame (c : Codes) (f : Frame) : Except DecodeError Instr :=
  match (opcodeMap c).find? fun r => r.opcode == f.b0 with
  | some r => r.read f
  | none => .error (.unknownOpcode f.b0)

/-- The first instruction of a byte sequence, and the bytes after it: every frame is `FRAME_SIZE` bytes (R82). -/
def decodeBytes (c : Codes) : List Byte → Except DecodeError (Instr × List Byte)
  | b0 :: b1 :: b2 :: b3 :: rest => (decodeFrame c ⟨b0, b1, b2, b3⟩).map fun i => (i, rest)
  | _ => .error .tooShort

/-- The word of a table row: its low `nbits` bits are given, and every bit above them is 0. -/
def tableWord (nbits w : Nat) : BitVec 32 := BitVec.ofNat 32 (w % 2 ^ nbits)

/-- The instruction read from a word numbered as the opcode table numbers it: bit 0 is `F[0]` of R81, and the frame is laid
out with byte 0 = `F[31:24]` first. The table is written in the reference values of R7. -/
def decodeTableWord (nbits w : Nat) : Option Instr :=
  match decodeBytes Config.refCodes (Frame.ofWord (tableWord nbits w)).toBytes with
  | .ok (i, _) => some i
  | .error _ => none

/-! ### The encoder -/

/-- Format NOARG (R86). -/
def fmtNoarg (opcode : Byte) : Frame := ⟨opcode, 0#8, 0#8, 0#8⟩

/-- Format REG8 (R87). -/
def fmtReg8 (opcode : Byte) (value : BitVec 8) : Frame := ⟨opcode, value, 0#8, 0#8⟩

/-- Format REG16 (R87). -/
def fmtReg16 (opcode : Byte) (value : BitVec 16) : Frame := ⟨opcode, value.extractLsb' 8 8, value.extractLsb' 0 8, 0#8⟩

/-- Format DIR20 (R83): the top 4 bits of the value in bits 3:0 of byte 1 (`90_conflicts.md` C2). -/
def fmtDir20 (opcode : Byte) (value : BitVec 20) : Frame :=
  ⟨opcode, 0#4 ++ value.extractLsb' 16 4, value.extractLsb' 8 8, value.extractLsb' 0 8⟩

/-- Formats DIR22 and ABS22 (R84, R85): the top 6 bits of the value in bits 5:0 of byte 1 (`90_conflicts.md` C3). -/
def fmtDir22 (opcode : Byte) (value : BitVec 22) : Frame :=
  ⟨opcode, 0#2 ++ value.extractLsb' 16 6, value.extractLsb' 8 8, value.extractLsb' 0 8⟩

/-- The frame of a wire instruction; a host operation has "no bit encoding" (R80). -/
def encodeFrame (c : Codes) : Instr → Option Frame
  | .frameNop => some (fmtNoarg c.opcNop)
  | .frameSetParamAcc v => some (fmtReg16 (c.opcSetParam ||| c.regAcc) v)
  | .frameSetParamDec v => some (fmtReg16 (c.opcSetParam ||| c.regDec) v)
  | .frameSetParamMaxSpeed v => some (fmtReg16 (c.opcSetParam ||| c.regMaxSpeed) v)
  | .frameSetParamKvalHold v => some (fmtReg8 (c.opcSetParam ||| c.regKvalHold) v)
  | .frameSetParamKvalRun v => some (fmtReg8 (c.opcSetParam ||| c.regKvalRun) v)
  | .frameSetParamKvalAcc v => some (fmtReg8 (c.opcSetParam ||| c.regKvalAcc) v)
  | .frameSetParamKvalDec v => some (fmtReg8 (c.opcSetParam ||| c.regKvalDec) v)
  | .frameSetParamOcdTh v => some (fmtReg8 (c.opcSetParam ||| c.regOcdTh) v)
  | .frameSetParamStallTh v => some (fmtReg8 (c.opcSetParam ||| c.regStallTh) v)
  | .frameSetParamStepMode v => some (fmtReg8 (c.opcSetParam ||| c.regStepMode) v)
  | .frameGetParamAbsPos => some (fmtNoarg c.opcGetAbsPos)
  | .frameMove0 v => some (fmtDir22 Config.opcMove v)
  | .frameMove1 v => some (fmtDir22 (Config.opcMove ||| 1#8) v)
  | .frameRun0 v => some (fmtDir20 Config.opcRun v)
  | .frameRun1 v => some (fmtDir20 (Config.opcRun ||| 1#8) v)
  | .frameGoto v => some (fmtDir22 c.opcGoto v)
  | .frameGotoDir0 v => some (fmtDir22 c.opcGotoDir v)
  | .frameGotoDir1 v => some (fmtDir22 (c.opcGotoDir ||| 1#8) v)
  | .frameGoHome => some (fmtNoarg c.opcGoHome)
  | .frameSoftHiz => some (fmtNoarg c.opcSoftHiz)
  | .frameHardHiz => some (fmtNoarg c.opcHardHiz)
  | .frameSoftStop => some (fmtNoarg c.opcSoftStop)
  | .frameHardStop => some (fmtNoarg c.opcHardStop)
  | .frameGetStatus => some (fmtNoarg c.opcGetStatus)
  | .frameResetPos => some (fmtNoarg c.opcResetPos)
  | .packRun .. | .packMove .. | .packGoto .. | .packGotoDir .. | .packNoarg .. | .packGetStatusOpcodes
  | .packRegisterWrite1 .. | .packRegisterWrite2 .. | .packRegisterWrite3 .. | .chainSingle .. | .withClockout ..
  | .parseStatus .. | .parseParam22 .. => none
  | .encodeMaxSpeed .. | .encodeAccDec .. | .encodeStallThresholdMa .. | .encodeOcdThresholdMa ..
  | .encodeMicrostepExponent .. => none
  | .getStatusAll | .isBusy .. | .getAbsPos .. | .waitWhileBusy .. => none
  | .run .. | .move .. | .goto .. | .gotoDir .. | .goHome .. | .resetPos .. | .softStop .. | .hardStop ..
  | .disableOutputs .. => none
  | .init | .powerEnable | .powerDisable | .reset | .applyModelParams .. | .setActiveModel ..
  | .setActiveModelByName .. | .getActiveModel .. => none
  | .decodeCompact .. | .decodeVerbose .. => none

/-- The bytes of a wire instruction, first byte on the wire first. -/
def encode (c : Codes) (i : Instr) : Option (List Byte) := (encodeFrame c i).map Frame.toBytes

end Sys2Proof
end

