-- ==== Sys2Proof/Machine/State.lean ====
section
/-! DEFINITION. The machine's state as plain data: the components of `10_state.md` R20, the open parameters of `00_scope.md`
R7, and the outside world's inputs and outputs (INVENTORY.md lists every field). Its value after reset is R43's. -/

namespace Sys2Proof.Machine

/-! ### Results and events -/

/-- The error kinds of `60_exceptions.md` R261. -/
inductive ErrorKind where
  | notReady
  | transportError (e : TransportErr)
  | powerDisabled
  | limitExceeded
  | faultLatched
  | timeout
  | notFound
  | invalidArgument
  deriving DecidableEq, Repr

/-- The success values of R94's operations. -/
inductive Value where
  | unit
  | u8 (v : U8)
  | u16 (v : U16)
  | bool (b : Bool)
  | words (w0 w1 : U16)
  | position (p : I32)
  | frame (f : Frame)
  | chainBuf (cb : ChainBuf)
  | readBuf (rb : ReadBuf)
  | model (index : U32) (m : MotorModel)
  | text (t : String)
  deriving DecidableEq, Repr

/-- What an operation returns to its caller: success with a value, or one error (R260). -/
inductive Result where
  | ok (v : Value)
  | err (e : ErrorKind)
  deriving DecidableEq, Repr

/-- The level of the reset pin; it is active-low (`00_scope.md` R10). -/
inductive Level where
  | low
  | high
  deriving DecidableEq, Repr

/-- What `Transceive(tx)` returned: `Ok(rx)` with `len(rx) = len(tx)`, or `Err(e)` (`20_memory.md` R65). -/
inductive Reply where
  | ok (rx : Buf)
  | err (e : TransportErr)
  deriving DecidableEq, Repr

/-- The events of `10_state.md` R31. -/
inductive Event where
  | transceive (tx : Buf) (reply : Reply)
  | resetPin (level : Level)
  | powerPin (on : Bool)
  | sleep (ms : Nat)
  | persist (axis : Dev) (index : U32)
  | ret (op : Instr) (result : Result)
  deriving DecidableEq, Repr

/-- An entry of `log`: an event "tagged with the caller agent" (R31). -/
structure Entry where
  caller : Nat
  event : Event
  deriving DecidableEq, Repr

/-! ### Operations in progress -/

/-- A line of an operation's pseudocode, as `60_exceptions.md` R260 and `10_state.md` R33 run it: at most one external
primitive each. `Machine/Ops.lean` says what each does; the rules named here are where the pseudocode stands. -/
inductive Line where
  /-- `if dev >= CHAIN_SIZE: raise InvalidArgument` (R180); the index is the operation's device from here on. -/
  | checkDev (dev : U32)
  /-- `if not ready: raise NotReady` (R180). -/
  | checkReady
  /-- `if not power_enabled: raise PowerDisabled` (R184). -/
  | checkPower
  /-- `if speed > speed_ceiling(dev): raise LimitExceeded` (R184). -/
  | checkSpeed (speed : U32)
  /-- `if steps > MAX_MOVE_STEPS: raise LimitExceeded` (R185). -/
  | checkSteps (steps : U32)
  /-- `if axis >= N_AXES: raise NotFound` (R232); the index is the operation's axis from here on. -/
  | checkAxis (axis : U32)
  /-- `if not TransportReady(): raise NotReady` (R220). -/
  | checkTransport
  /-- `if not HAS_POWER_PIN or not PinReady(power): raise NotReady` (R222). -/
  | checkPowerPin
  /-- `if not PinReady(reset): raise NotReady` (R226). -/
  | checkResetPin
  /-- The readiness test inside `try get_status_all()` (R183): when not ready, the read and its test, the next `skip` lines,
  are passed over. -/
  | tryReady (skip : Nat)
  /-- `acquire lock` of the reset sequence (R226). -/
  | acquireLock
  /-- `release lock` of the reset sequence (R226). -/
  | releaseLock
  /-- `r <- Transceive(tx)` under the lock, `tx` being the buffer that carries this frame (R88 to R90, R181). -/
  | emit (frame : Frame)
  /-- `if r = Err(e): raise TransportError(e)` (R181). -/
  | needOk
  /-- The fault test of `fault_check` (R183). -/
  | testFault
  /-- `return [parse_status(rx, 0), parse_status(rx, 1)]`, or the transport's error (R160). -/
  | returnStatus
  /-- `return s[dev][1] = 1`, or the transport's error (R162). -/
  | returnBusy
  /-- `return parse_param22(r.rx, dev)`, or the transport's error (R163). -/
  | returnPosition
  /-- `arm deadline at now + timeout_ms` (R166). -/
  | armDeadline (dev timeoutMs pollMs : U32)
  /-- `if not b: return ()` of the poll loop (R166); `left` queries of `Deadline()` still answer false. -/
  | testPoll (dev pollMs : U32) (left : Nat)
  /-- `if Deadline(): raise Timeout`, else sleep and poll again (R166). -/
  | testDeadline (dev pollMs : U32) (left : Nat)
  /-- `Sleep(ms)`. -/
  | sleep (ms : Nat)
  /-- `ResetPin(level)`. -/
  | driveReset (level : Level)
  /-- `ready <- true` (R220). -/
  | setReady
  /-- `PowerPin(on)` and `power_enabled <- on` (R222, R224), one step, so that pin and flag agree after every completed call
  (R225, log entry 21). -/
  | switchPower (on : Bool)
  /-- The re-arm of one axis in `power_enable` (R222): look its model up and apply it, or skip the axis. -/
  | rearm (axis : Dev)
  /-- `if Catalog.lookup_by_index(index) = None: raise NotFound` (R232). -/
  | findIndex (index : U32)
  /-- `r <- Catalog.lookup_by_name(name)`; `if r = None: raise NotFound` (R233). -/
  | findName (name : String)
  /-- `axis_model[axis] <- index` (R232, R233). -/
  | setAxis (index : U32)
  /-- `Persist(axis, index)` (R231). -/
  | persist (index : U32)
  /-- `return (i, CATALOG[i])` of the axis's index (R234). -/
  | returnModel
  /-- `return ()`. -/
  | returnUnit
  deriving DecidableEq, Repr

/-- `Active(o, args, k, locals)` of `10_state.md` R32: `op` is the operation with its arguments, `k` the index of the next
step; the locals are the device the checked operand names, the answer of the last transceive, and the lines still to run. -/
structure Activation where
  op : Instr
  k : Nat
  dev : Dev
  reply : Option Answer
  rest : List Line
  deriving DecidableEq, Repr

/-- An operation slot `op[g]` (R32). -/
inductive Slot where
  | idle
  | active (a : Activation)
  deriving DecidableEq, Repr

/-- What the block holds for one caller agent: its slot (R32), the value last returned to it, and the calls it has yet to
make (R95; log entry 12). -/
structure Caller where
  slot : Slot
  result : Option Result
  calls : List Instr
  deriving DecidableEq, Repr

/-- A caller that has made no call. -/
def Caller.fresh : Caller := { slot := .idle, result := none, calls := [] }

/-! ### The environment -/

/-- The draws of one port: those supplied so far, to be used first, and how many free draws were made after them. -/
structure Feed (α : Type) where
  script : List α
  drawn : Nat
  deriving DecidableEq, Repr

/-- A feed with nothing supplied. -/
def Feed.empty (α : Type) : Feed α := { script := [], drawn := 0 }

/-- The environment's draws (R273), one feed a port. -/
structure Env where
  answers : Feed Answer
  transportReady : Feed Bool
  resetPin : Feed Bool
  powerPin : Feed Bool
  deadlines : Feed Nat
  picks : Feed Pick
  deriving DecidableEq, Repr

/-- An environment with nothing supplied: every draw is free. -/
def Env.free : Env :=
  { answers := Feed.empty _, transportReady := Feed.empty _, resetPin := Feed.empty _, powerPin := Feed.empty _
    deadlines := Feed.empty _, picks := Feed.empty _ }

/-! ### The state -/

/-- The machine. `callers` lists the caller agents from 0 on; an agent past its end is one that has made no call, so the
model has as many callers as anyone names (`60_exceptions.md` R272). -/
@[ext]
structure State where
  /-- `ready` (R22). -/
  ready : Bool
  /-- `power_enabled` (R23). -/
  powerEnabled : Bool
  /-- `transport`, opaque (R25). -/
  transport : Nat
  /-- `axis_model[0]` (R26), a u32 as `Catalog` and `get_active_model` have it (R268, R234). -/
  axis0 : U32
  /-- `axis_model[1]` (R26). -/
  axis1 : U32
  /-- `lock`: free, or held by a caller (R30). -/
  lock : Option Nat
  /-- `op[g]` of every caller, with the caller's interface (R32). -/
  callers : List Caller
  /-- `log`, oldest event first (R31). -/
  log : List Entry
  /-- The parameters of R7: the codes and the OPEN ones; no step changes them. -/
  params : Params
  /-- The environment's draws (R273). -/
  env : Env
  /-- The caller whose step is being taken. -/
  cur : Nat
  deriving DecidableEq, Repr

/-- The state after reset (`10_state.md` R43, `70_reset_and_hazards.md` R290): Uninitialized, power disabled, both axes at
index 0, the lock free, every slot idle, the log empty. The values R43 does not give are those of log entries 2, 3, 5, 13. -/
def State.reset : State :=
  { ready := false, powerEnabled := false, transport := 0, axis0 := 0, axis1 := 0, lock := none, callers := [], log := []
    params := Config.refParams, env := Env.free, cur := 0 }

/-! ### How a step can stop -/

/-- A fault: the machine stops. -/
inductive Fault where
  /-- Raised by a step at a line that reads the answer of a transceive when the operation has made none. No operation is
  written so: no state reached from reset raises it. Safe (log entry 16). -/
  | noReply
  deriving DecidableEq, Repr

/-- A refusal: the model gives the situation no meaning. -/
inductive Refusal where
  /-- Raised by `exec` for an instruction with no meaning yet (none in this model). Safe. -/
  | notModelled (mnemonic : String)
  /-- Raised by `exec` of a host operation when its caller's slot is not idle: a caller "invokes host operations one at a
  time" and "no operation is re-entered by the same caller" (R272, R274). Safe (log entry 16). -/
  | callerBusy
  /-- Raised by `exec` of a wire frame when its caller has no operation in progress: a frame is emitted only by an operation
  (R91, "emitted by"). Safe (log entry 9). -/
  | frameOutsideOperation
  /-- Raised by a step whose line would emit a frame that is no row of the opcode table: "the block emits no opcode byte
  outside rule R91" (R92). Safe (log entry 16). -/
  | unlistedFrame
  /-- Raised by `get_active_model` when the axis's index names no catalog entry: `93_implementation_defined.md` I8, "refuse".
  Safe (log entry 16). -/
  | noCatalogEntry
  deriving DecidableEq, Repr

end Sys2Proof.Machine
end

