-- ==== Sys2Proof/Machine/Flags.lean ====
section
/-! DEFINITION. The status word: its named bits (`10_state.md` R34 to R37), the fault-latch predicate, and the StatusDecoder's
strings (`45_status_decoder.md` R250 to R252). -/

namespace Sys2Proof.Machine

/-- The named bits of a StatusWord (R34); a bit equal to 1 means the condition is present (R35). -/
def bitBusy : Nat := 1
def bitUvlo : Nat := 5
def bitThSd : Nat := 7
def bitOcd : Nat := 9
def bitStepLossA : Nat := 10
def bitStepLossB : Nat := 11

/-- BUSY of a status word. -/
def busy (s : U16) : Bool := s.getLsbD bitBusy

/-- `FAULT_LATCH_MASK` (R36): bits 9, 10, 11. -/
def faultLatchMask : U16 := 0x0E00#16

/-- `fault_latched(s) = (s AND 0x0E00) != 0` (R36). -/
def faultLatched (s : U16) : Bool := (s &&& faultLatchMask) != 0#16

/-- `FLAGS`, in the decoder's fixed priority order (R250). -/
def flagOrder : List (String × Nat) :=
  [("OCD", bitOcd), ("TH_SD", bitThSd), ("UVLO", bitUvlo), ("STEP_LOSS_A", bitStepLossA), ("STEP_LOSS_B", bitStepLossB),
    ("BUSY", bitBusy)]

/-- `set_flags(s)`: the names whose bit is 1, in `FLAGS` order (R250). -/
def setFlags (s : U16) : List String := (flagOrder.filter fun p => s.getLsbD p.2).map Prod.fst

/-- One upper-case hexadecimal digit. -/
def hexDigit (d : BitVec 4) : Char := "0123456789ABCDEF".toList.getD d.toNat '0'

/-- `hex4(s)`: `"0x"` and exactly four upper-case hexadecimal digits (R250). -/
def hex4 (s : U16) : String :=
  "0x" ++ String.ofList [hexDigit (s.extractLsb' 12 4), hexDigit (s.extractLsb' 8 4), hexDigit (s.extractLsb' 4 4),
    hexDigit (s.extractLsb' 0 4)]

/-- `decode_compact` (R251). -/
def decodeCompact (s : U16) : String :=
  if s = 0#16 then "NO DATA"
  else if setFlags s ≠ [] then " ".intercalate (setFlags s)
  else hex4 s

/-- `decode_verbose` (R252). -/
def decodeVerbose (s : U16) : String := (setFlags s).foldl (fun out name => out ++ " " ++ name) (hex4 s)

/-- The numeric code of a result (`60_exceptions.md` R261, decision D25). -/
def resultCode : Result → Nat
  | .ok _ => 0
  | .err .notReady => 1
  | .err (.transportError _) => 2
  | .err .powerDisabled => 3
  | .err .limitExceeded => 4
  | .err .faultLatched => 5
  | .err .timeout => 6
  | .err .notFound => 7
  | .err .invalidArgument => 8

end Sys2Proof.Machine
end

