-- ==== Sys2Proof/Machine/Operands.lean ====
section
/-! DEFINITION. The pure functions over operands: FrameCodec's packers, chain buffers and parsers (`40_frame_codec.md`),
RegisterEncoder's quantities (`41_register_encoder.md`), the catalog's lookups (`10_state.md` R29) and the re-arm write list
(`44_configuration.md` R227). None reads the state; those that write an opcode or a register address take R7's values as an
argument. -/

namespace Sys2Proof.Machine

/-! ### Frame packers (R100 to R108) -/

/-- The direction bit: `dir AND 1` (decision D33). -/
def dirBit (dir : U8) : Byte := dir &&& 1#8

/-- `[b0, v[21:16], v[15:8], v[7:0]]` of a 22-bit value (R101 to R103). -/
def frame22 (b0 : Byte) (v : BitVec 22) : Frame :=
  ⟨b0, (v.extractLsb' 16 6).setWidth 8, v.extractLsb' 8 8, v.extractLsb' 0 8⟩

/-- `pack_run` (R100): the value masked to 20 bits. -/
def packRun (_dev : Dev) (dir : U8) (speedRaw : U32) : Frame :=
  let v : BitVec 20 := speedRaw.setWidth 20
  ⟨Config.opcRun ||| dirBit dir, (v.extractLsb' 16 4).setWidth 8, v.extractLsb' 8 8, v.extractLsb' 0 8⟩

/-- `pack_move` (R101): the value masked to 22 bits. -/
def packMove (_dev : Dev) (dir : U8) (stepsRaw : U32) : Frame := frame22 (Config.opcMove ||| dirBit dir) (stepsRaw.setWidth 22)

/-- `pack_goto` (R102): the position modulo 2^22, in two's complement. -/
def packGoto (c : Codes) (_dev : Dev) (absPos : I32) : Frame := frame22 c.opcGoto (absPos.setWidth 22)

/-- `pack_goto_dir` (R103). -/
def packGotoDir (c : Codes) (_dev : Dev) (dir : U8) (absPos : I32) : Frame :=
  frame22 (c.opcGotoDir ||| dirBit dir) (absPos.setWidth 22)

/-- `pack_noarg` (R104). -/
def packNoarg (_dev : Dev) (opcode : U8) : Frame := ⟨opcode, 0#8, 0#8, 0#8⟩

/-- `NOP_FRAME` (R88, R104). -/
def nopFrame (c : Codes) : Frame := packNoarg 0 c.opcNop

/-- `pack_get_status_opcodes` (R105). -/
def packGetStatusOpcodes (c : Codes) : ChainBuf := ⟨packNoarg 0 c.opcGetStatus, packNoarg 1 c.opcGetStatus⟩

/-- `pack_register_write_1_bytes` (R106): the value masked to 8 bits, in byte 1. -/
def packRegisterWrite1 (_dev : Dev) (opcode : U8) (value : U32) : Frame := ⟨opcode, value.setWidth 8, 0#8, 0#8⟩

/-- `pack_register_write_2_bytes` (R107): the value masked to 16 bits, in bytes 1 and 2. -/
def packRegisterWrite2 (_dev : Dev) (opcode : U8) (value : U32) : Frame :=
  ⟨opcode, value.extractLsb' 8 8, value.extractLsb' 0 8, 0#8⟩

/-- `pack_register_write_3_bytes` (R108): the value masked to 24 bits, in bytes 1 to 3. -/
def packRegisterWrite3 (_dev : Dev) (opcode : U8) (value : U32) : Frame :=
  ⟨opcode, value.extractLsb' 16 8, value.extractLsb' 8 8, value.extractLsb' 0 8⟩

/-! ### Chain buffers (R109, R110; `30_encoding.md` R88 to R90) -/

/-- `chain_single` (R109): the frame in slot `dev`, `NOP_FRAME` in every other slot. -/
def chainSingle (c : Codes) (dev : Dev) (frame : Frame) : ChainBuf :=
  ⟨if dev = 0 then frame else nopFrame c, if dev = 1 then frame else nopFrame c⟩

/-- A whole phase of `OPC_NOP` bytes. -/
def nopPhase (c : Codes) : ChainBuf :=
  let f : Frame := ⟨c.opcNop, c.opcNop, c.opcNop, c.opcNop⟩
  ⟨f, f⟩

/-- `with_clockout` (R110). -/
def withClockout (c : Codes) (cb : ChainBuf) : ReadBuf := ⟨cb, nopPhase c⟩

/-- The buffer in which the block sends a frame for device `dev`: GET_STATUS in every slot with a clock-out phase (`CB_STATUS`,
R89), GET_PARAM in one slot with a clock-out phase (`CB_PARAM`, R90), any other frame in one slot of one phase (`CB_SINGLE`,
R88). -/
def txOf (c : Codes) (dev : Dev) (frame : Frame) : Buf :=
  if frame.b0 = c.opcGetStatus then .read (withClockout c (packGetStatusOpcodes c))
  else if frame.b0 = c.opcGetAbsPos then .read (withClockout c (chainSingle c dev frame))
  else .phase (chainSingle c dev frame)

/-- The reply to a buffer, from the transport's answer: as many received bytes as were sent (`20_memory.md` R65). -/
def replyTo (tx : Buf) : Answer → Reply
  | .ok rx => .ok (match tx with
    | .phase _ => .phase rx.opcodePhase
    | .read _ => .read rx)
  | .err e => .err e

/-! ### Reply parsers (R120 to R122) -/

/-- Byte `i` of a reply (`20_memory.md` R60). Every index the codec uses is below 16 (R66). -/
def byteAt (reply : ReadBuf) (i : Nat) : Byte := reply.toBytes.getD i 0#8

/-- Where the reply data of device `dev` starts: `FRAME_SIZE * (dev + 1) + 1` (`20_memory.md` R64). -/
def replyOffset (dev : Dev) : Nat := Config.frameSize * (dev.val + 1) + 1

/-- `parse_status` (R120): a big-endian 16-bit word. -/
def parseStatus (reply : ReadBuf) (dev : Dev) : U16 := byteAt reply (replyOffset dev) ++ byteAt reply (replyOffset dev + 1)

/-- `parse_param22` (R122): the low 22 bits of 3 bytes, sign-extended from bit 21. -/
def parseParam22 (reply : ReadBuf) (dev : Dev) : I32 :=
  let raw : BitVec 24 :=
    byteAt reply (replyOffset dev) ++ byteAt reply (replyOffset dev + 1) ++ byteAt reply (replyOffset dev + 2)
  (raw.setWidth 22).signExtend 32

/-! ### Register encoders (R140 to R145) -/

/-- `rha(p, q)`: `p / q` rounded to the nearest integer, halves away from zero (R140). -/
def rha (p q : Nat) : Nat := (2 * p + q) / (2 * q)

/-- `clamp(x, lo, hi)` (R9). -/
def clamp (x lo hi : Nat) : Nat := min hi (max lo x)

/-- `encode_max_speed` (R141) as a natural. -/
def maxSpeedCode (stepsPerSec : Nat) : Nat := min 1023 (rha (1000 * stepsPerSec) 238)

/-- `encode_acc_dec` (R142) as a natural. -/
def accDecCode (stepsPerSec2 : Nat) : Nat := min 4095 (rha (100 * stepsPerSec2) 1455)

/-- `encode_stall_threshold_ma` (R143) as a natural. -/
def stallCode (ma : Nat) : Nat := clamp (rha (ma + 15) 31) 1 127

/-- `encode_ocd_threshold_ma` (R144) as a natural. -/
def ocdCode (ma : Nat) : Nat := clamp (rha (max ma 375) 375) 1 15

/-- `encode_microstep_exponent` (R145) as a natural. -/
def microstepCode (divisor : Int) : Nat :=
  if divisor = 1 then 0 else if divisor = 2 then 1 else if divisor = 4 then 2 else if divisor = 8 then 3
  else if divisor = 16 then 4 else if divisor = 32 then 5 else if divisor = 64 then 6 else if divisor = 128 then 7
  else 4

/-- The encoders with their interface types (R94). -/
def encodeMaxSpeed (v : U32) : U16 := BitVec.ofNat 16 (maxSpeedCode v.toNat)
def encodeAccDec (v : U32) : U16 := BitVec.ofNat 16 (accDecCode v.toNat)
def encodeStallThresholdMa (ma : U32) : U8 := BitVec.ofNat 8 (stallCode ma.toNat)
def encodeOcdThresholdMa (ma : U32) : U8 := BitVec.ofNat 8 (ocdCode ma.toNat)
def encodeMicrostepExponent (divisor : I32) : U8 := BitVec.ofNat 8 (microstepCode divisor.toInt)

/-! ### The catalog port (`10_state.md` R29, `60_exceptions.md` R268) and the re-arm write list (R227) -/

/-- `count() -> u32`: the length of the catalog, which is below 2^32 where the parameters are legal. -/
def catalogCount (catalog : List MotorModel) : U32 := BitVec.ofNat 32 catalog.length

/-- `lookup_by_index(u32) -> Option<MotorModel>`. -/
def lookupByIndex (catalog : List MotorModel) (i : U32) : Option MotorModel := catalog[i.toNat]?

/-- `lookup_by_name(&str) -> Option<(u32, MotorModel)>`: the least index whose name is `name`, and its record. -/
def lookupByName : List MotorModel → String → Option (U32 × MotorModel)
  | [], _ => none
  | m :: ms, name => if m.name = name then some (0#32, m) else (lookupByName ms name).map fun (i, m') => (i + 1#32, m')

/-- How many value bytes a register write carries (`10_state.md` R39). -/
inductive RegSize where
  | one
  | two
  deriving DecidableEq, Repr

/-- One row of R227: a register, its byte count, its value. -/
structure RegWrite where
  reg : Byte
  size : RegSize
  value : U32
  deriving DecidableEq, Repr

/-- `param_writes(model)` (R227), in its order. -/
def paramWrites (c : Codes) (m : MotorModel) : List RegWrite :=
  [⟨c.regStepMode, .one, (encodeMicrostepExponent m.microstep).setWidth 32⟩,
   ⟨c.regKvalHold, .one, m.kvalHold.setWidth 32⟩,
   ⟨c.regKvalRun, .one, m.kvalRun.setWidth 32⟩,
   ⟨c.regKvalAcc, .one, m.kvalAcc.setWidth 32⟩,
   ⟨c.regKvalDec, .one, m.kvalDec.setWidth 32⟩,
   ⟨c.regOcdTh, .one, (encodeOcdThresholdMa m.ocdThresholdMa).setWidth 32⟩,
   ⟨c.regAcc, .two, (encodeAccDec m.acc).setWidth 32⟩,
   ⟨c.regDec, .two, (encodeAccDec m.dec).setWidth 32⟩,
   ⟨c.regMaxSpeed, .two, (encodeMaxSpeed m.maxSpeed).setWidth 32⟩,
   ⟨c.regStallTh, .one, (encodeStallThresholdMa m.stallThresholdMa).setWidth 32⟩]

/-- The frame of a register write (R228). -/
def regWriteFrame (c : Codes) (dev : Dev) (w : RegWrite) : Frame :=
  match w.size with
  | .one => packRegisterWrite1 dev (c.opcSetParam ||| w.reg) w.value
  | .two => packRegisterWrite2 dev (c.opcSetParam ||| w.reg) w.value

end Sys2Proof.Machine
end

