-- ==== Sys2Proof/Machine/Ops.lean ====
section
/-! DEFINITION. The named operations over the state: draws of the environment, the log, callers and their slots, the lock,
ending an operation (`return` and `raise`, `60_exceptions.md` R260), the transceive, one line of an operation, and running an
operation to its end. -/

namespace Sys2Proof.Machine

/-! ### The environment's draws (R273) -/

/-- The `n`-th draw from now: supplied, or free. -/
def Feed.ahead {α : Type} (free : Nat → α) (f : Feed α) (n : Nat) : α :=
  match f.script[n]? with
  | .some a => a
  | .none => free (f.drawn + (n - f.script.length))

/-- The feed after one draw. -/
def Feed.take {α : Type} (f : Feed α) : Feed α :=
  match f.script with
  | _ :: rest => { f with script := rest }
  | [] => { f with drawn := f.drawn + 1 }

/-- The feed after `n` draws. -/
def Feed.drop {α : Type} : Nat → Feed α → Feed α
  | 0, f => f
  | n + 1, f => Feed.drop n f.take

/-- The transport's answers to the transceives to come, in order. -/
def State.answer (s : State) (n : Nat) : Answer := s.env.answers.ahead Config.freeAnswer n

/-- The next answer of each readiness query. -/
def State.transportReady (s : State) : Bool := s.env.transportReady.ahead Config.freeTransportReady 0
def State.resetPinReady (s : State) : Bool := s.env.resetPin.ahead Config.freeResetPinReady 0
def State.powerPinReady (s : State) : Bool := s.env.powerPin.ahead Config.freePowerPinReady 0

/-- How many `Deadline()` queries of the next wait to arm one answer false (R269, log entry 8). -/
def State.deadlineCount (s : State) : Nat := s.env.deadlines.ahead Config.freeDeadline 0

/-- The scheduler's next choice (I15). -/
def State.nextPick (s : State) : Pick := s.env.picks.ahead Config.freePick 0

def State.takeAnswers (n : Nat) (s : State) : State := { s with env := { s.env with answers := s.env.answers.drop n } }
def State.takeTransportReady (s : State) : State := { s with env := { s.env with transportReady := s.env.transportReady.take } }
def State.takeResetPin (s : State) : State := { s with env := { s.env with resetPin := s.env.resetPin.take } }
def State.takePowerPin (s : State) : State := { s with env := { s.env with powerPin := s.env.powerPin.take } }
def State.takeDeadline (s : State) : State := { s with env := { s.env with deadlines := s.env.deadlines.take } }
def State.takePick (s : State) : State := { s with env := { s.env with picks := s.env.picks.take } }

/-! ### Callers and slots (`10_state.md` R32) -/

/-- Entry `n` of the callers' list; past its end, a caller that has made no call. -/
def callerAt : List Caller → Nat → Caller
  | [], _ => Caller.fresh
  | c :: _, 0 => c
  | _ :: cs, n + 1 => callerAt cs n

/-- The list with entry `n` set, lengthened by fresh callers where it is too short. -/
def setCallerAt : List Caller → Nat → Caller → List Caller
  | [], 0, c => [c]
  | [], n + 1, c => Caller.fresh :: setCallerAt [] n c
  | _ :: cs, 0, c => c :: cs
  | d :: cs, n + 1, c => d :: setCallerAt cs n c

/-- The caller agent `g`. -/
def State.caller (s : State) (g : Nat) : Caller := callerAt s.callers g

/-- The state with caller `g` set. -/
def State.setCaller (g : Nat) (c : Caller) (s : State) : State := { s with callers := setCallerAt s.callers g c }

/-- `op[g]` (R32). -/
def State.slot (s : State) (g : Nat) : Slot := (s.caller g).slot

/-- `op[g] <- slot`. -/
def State.setSlot (g : Nat) (slot : Slot) (s : State) : State := s.setCaller g { s.caller g with slot := slot }

/-- A step of caller `g` to the next line: the line at the head is done, `k <- k + 1` (R33). -/
def State.advance (g : Nat) (s : State) : State :=
  match s.slot g with
  | .idle => s
  | .active a => s.setSlot g (.active { a with k := a.k + 1, rest := a.rest.tail })

/-- A step to the lines `ls`, which stand before the ones after the head (a call inlined, a loop's next round). -/
def State.goInto (g : Nat) (a : Activation) (ls : List Line) (s : State) : State :=
  s.setSlot g (.active { a with k := a.k + 1, rest := ls ++ a.rest.tail })

/-- A step that also sets the operation's device or axis. -/
def State.advanceOn (g : Nat) (a : Activation) (dev : Dev) (s : State) : State :=
  s.setSlot g (.active { a with k := a.k + 1, dev := dev, rest := a.rest.tail })

/-! ### The log (R31) -/

/-- Append an event of caller `g`. -/
def State.record (g : Nat) (e : Event) (s : State) : State := { s with log := s.log ++ [⟨g, e⟩] }

/-! ### `axis_model` (R26) -/

def State.axisModel (s : State) (a : Dev) : U32 := if a = 0 then s.axis0 else s.axis1

def State.setAxisModel (a : Dev) (i : U32) (s : State) : State :=
  if a = 0 then { s with axis0 := i } else { s with axis1 := i }

/-- The active model's record, if its index is valid. -/
def State.activeModel (s : State) (a : Dev) : Option MotorModel := lookupByIndex s.params.catalog (s.axisModel a)

/-- `speed_ceiling(dev)` (R182). -/
def State.speedCeiling (s : State) (a : Dev) : Nat :=
  match s.activeModel a with
  | some m => m.maxSpeed.toNat
  | none => Config.defaultMaxSpeed

/-! ### The lock (`20_memory.md` R71) -/

/-- The lock is free or held by `g`. -/
def State.lockOpen (g : Nat) (s : State) : Bool :=
  match s.lock with
  | none => true
  | some h => h == g

/-! ### Ending an operation (R33, R260)

`return v` and `raise E` are ONE operation: the result goes to the caller, `Return(op, result)` to the log, and the slot to
`Idle`. Nothing is saved and no mode changes. -/

def State.finish (g : Nat) (op : Instr) (r : Result) (s : State) : State :=
  (s.record g (.ret op r)).setCaller g { s.caller g with slot := .idle, result := some r }

/-- `raise E`. -/
def State.raise (g : Nat) (a : Activation) (e : ErrorKind) (s : State) : State := s.finish g a.op (.err e)

/-- `return v`. -/
def State.giveBack (g : Nat) (a : Activation) (v : Value) (s : State) : State := s.finish g a.op (.ok v)

/-- The value of a pure function goes to its caller with no step and no event (decision D39). -/
def State.deliver (v : Value) (s : State) : State := s.setCaller s.cur { s.caller s.cur with result := some (.ok v) }

/-! ### The transceive (`20_memory.md` R65, R68, R71) -/

/-- `r <- Transceive(tx)` for the frame `f` of the operation `a` of caller `g`: one event, one draw, the answer in the
operation's locals. The lock is taken and released within the step, so that a free lock is free after it. -/
def State.transmit (g : Nat) (a : Activation) (f : Frame) (s : State) : State :=
  ((s.record g (.transceive (txOf s.params.codes a.dev f)
    (replyTo (txOf s.params.codes a.dev f) (s.answer 0)))).takeAnswers 1).setSlot g
    (.active { a with reply := some (s.answer 0) })

/-! ### Operations in lines -/

/-- `get_status_all()` as lines up to its transceive (R160), and the frame it sends in every slot. -/
def getStatusFrame (c : Codes) : Frame := packNoarg 0 c.opcGetStatus

/-- The lines of `send_single(dev, frame)` (R181). -/
def sendLines (f : Frame) : List Line := [.emit f, .needOk]

/-- The lines of `fault_check(dev)` (R183). -/
def faultCheckLines (c : Codes) : List Line := [.tryReady 2, .emit (getStatusFrame c), .testFault]

/-- The lines of one poll of `wait_while_busy` (R166): `is_busy(dev)` and its test. -/
def pollLines (c : Codes) (dev pollMs : U32) (left : Nat) : List Line :=
  [.checkDev dev, .checkReady, .emit (getStatusFrame c), .testPoll dev pollMs left]

/-- The lines of `apply_model_params(dev, model)` before its `return` (R228). -/
def applyLines (c : Codes) (dev : U32) (m : MotorModel) : List Line :=
  [.checkDev dev, .checkReady] ++ (paramWrites c m).flatMap fun w => sendLines (regWriteFrame c 0 w)

/-- What a line that reads the answer of the last transceive does: with no answer it has no step; a transport error ends the
operation; else `k` goes on with the received bytes. -/
def State.onReply (g : Nat) (a : Activation) (s : State) (k : ReadBuf → State) : State :=
  match a.reply with
  | none => s
  | some (.err e) => s.raise g a (.transportError e)
  | some (.ok rx) => k rx

/-- One line of the operation `a` of caller `g`. A line that needs the lock and finds it held leaves the state as it is
(`20_memory.md` R71). The lines that need no lock do not look at it: that NO caller steps while another's reset sequence holds
the lock is kept where callers are scheduled (`stepCaller`, log entry 20). -/
def runLine (g : Nat) (a : Activation) (l : Line) (s : State) : State :=
  match l with
  | .checkDev dev => if h : dev.toNat < Config.chainSize then s.advanceOn g a ⟨dev.toNat, h⟩ else s.raise g a .invalidArgument
  | .checkReady => if s.ready then s.advance g else s.raise g a .notReady
  | .checkPower => if s.powerEnabled then s.advance g else s.raise g a .powerDisabled
  | .checkSpeed speed => if s.speedCeiling a.dev < speed.toNat then s.raise g a .limitExceeded else s.advance g
  | .checkSteps steps => if s.params.maxMoveSteps.toNat < steps.toNat then s.raise g a .limitExceeded else s.advance g
  | .checkAxis axis => if h : axis.toNat < Config.nAxes then s.advanceOn g a ⟨axis.toNat, h⟩ else s.raise g a .notFound
  | .checkTransport => if s.transportReady then s.takeTransportReady.advance g else s.takeTransportReady.raise g a .notReady
  | .checkPowerPin =>
    if !s.params.hasPowerPin then s.raise g a .notReady
    else if s.powerPinReady then s.takePowerPin.advance g
    else s.takePowerPin.raise g a .notReady
  | .checkResetPin => if s.resetPinReady then s.takeResetPin.advance g else s.takeResetPin.raise g a .notReady
  | .tryReady skip => if s.ready then s.advance g else s.goInto g { a with rest := a.rest.drop skip } []
  | .acquireLock => if s.lockOpen g then ({ s with lock := some g } : State).advance g else s
  | .releaseLock => ({ s with lock := none } : State).advance g
  | .emit f => if s.lockOpen g then (s.transmit g a f).advance g else s
  | .needOk => s.onReply g a fun _ => s.advance g
  | .testFault =>
    match a.reply with
    | none => s
    | some (.ok rx) => if faultLatched (parseStatus rx a.dev) then s.raise g a .faultLatched else s.advance g
    | some (.err _) => s.advance g
  | .returnStatus => s.onReply g a fun rx => s.giveBack g a (.words (parseStatus rx 0) (parseStatus rx 1))
  | .returnBusy => s.onReply g a fun rx => s.giveBack g a (.bool (busy (parseStatus rx a.dev)))
  | .returnPosition => s.onReply g a fun rx => s.giveBack g a (.position (parseParam22 rx a.dev))
  | .armDeadline dev timeoutMs pollMs =>
    if timeoutMs = 0#32 then s.goInto g a (pollLines s.params.codes dev pollMs 0)
    else s.takeDeadline.goInto g a (pollLines s.params.codes dev pollMs s.deadlineCount)
  | .testPoll dev pollMs left => s.onReply g a fun rx =>
    if busy (parseStatus rx a.dev) then s.goInto g a [.testDeadline dev pollMs left] else s.giveBack g a .unit
  | .testDeadline dev pollMs left =>
    match left with
    | 0 => s.raise g a .timeout
    | left + 1 => s.goInto g a (.sleep pollMs.toNat :: pollLines s.params.codes dev pollMs left)
  | .sleep ms => (s.record g (.sleep ms)).advance g
  | .driveReset level => (s.record g (.resetPin level)).advance g
  | .setReady => ({ s with ready := true } : State).advance g
  | .switchPower on => ({ s.record g (.powerPin on) with powerEnabled := on } : State).advance g
  | .rearm axis =>
    match s.activeModel axis with
    | some m => s.goInto g a (applyLines s.params.codes (BitVec.ofNat 32 axis.val) m)
    | none => s.advance g
  | .findIndex index =>
    match lookupByIndex s.params.catalog index with
    | some _ => s.goInto g a [.setAxis index, .persist index]
    | none => s.raise g a .notFound
  | .findName name =>
    match lookupByName s.params.catalog name with
    | some (i, _) => s.goInto g a [.setAxis i, .persist i]
    | none => s.raise g a .notFound
  | .setAxis index => (s.setAxisModel a.dev index).advance g
  | .persist index => (s.record g (.persist a.dev index)).advance g
  | .returnModel =>
    match s.activeModel a.dev with
    | some m => s.giveBack g a (.model (s.axisModel a.dev) m)
    | none => s
  | .returnUnit => s.giveBack g a .unit

/-- One line of caller `g`'s operation; an operation with no line left ends, an idle slot has no step. -/
def State.lineStep (g : Nat) (s : State) : State :=
  match s.slot g with
  | .idle => s
  | .active a =>
    match a.rest with
    | [] => s.setSlot g .idle
    | l :: _ => runLine g a l s

/-- Lines of caller `g`'s operation, until its slot is idle or `fuel` lines are done. -/
def State.runLines : Nat → Nat → State → State
  | 0, _, s => s
  | fuel + 1, g, s =>
    match s.slot g with
    | .idle => s
    | .active _ => State.runLines fuel g (s.lineStep g)

/-- More lines than any one operation has from here on: 64 for the lines written out, 8 for each further round of a wait. -/
def State.callFuel (s : State) : Nat := 8 * s.deadlineCount + 64

/-- A host call moves `Idle` to `Active(o, args, 0, {})` (R33). -/
def State.beginCall (g : Nat) (op : Instr) (lines : List Line) (s : State) : State :=
  s.setSlot g (.active { op := op, k := 0, dev := 0, reply := none, rest := lines })

/-! ### The two shapes of a meaning -/

/-- A host operation of the ChainController, called by the current caller and run line by line until it returns, no other
caller's line coming between; where the lock is held by another caller it stays in progress at the line that needs it (a
caller that the scheduler picks is held back before, log entry 20). -/
def call (op : Instr) (lines : List Line) (s : State) : Host.Outcome State Fault Refusal :=
  match s.slot s.cur with
  | .idle => .next ((s.beginCall s.cur op lines).runLines s.callFuel s.cur)
  | .active _ => .refused .callerBusy

/-- A pure function of FrameCodec, RegisterEncoder or StatusDecoder, called by the current caller (decision D39). -/
def pureCall (v : Value) (s : State) : Host.Outcome State Fault Refusal := .next (s.deliver v)

/-- A wire frame: the transmit line of the current caller's operation in progress (`30_encoding.md` R80, R91). -/
def emitFrame (f : Frame) (s : State) : Host.Outcome State Fault Refusal :=
  match s.slot s.cur with
  | .idle => .refused .frameOutsideOperation
  | .active a => .next (if s.lockOpen s.cur then s.transmit s.cur a f else s)

end Sys2Proof.Machine
end

