-- ==== Sys2Proof/Machine/Codec.lean ====
section
/-! DEFINITION. The FrameCodec operations (`40_frame_codec.md`): each a pure call of the current caller (decision D39),
its value a function of `Machine/Operands.lean`
or `Machine/Flags.lean`. -/

namespace Sys2Proof.Machine

/-- `pack_run` (R100). -/
def execPackRun (dev : Dev) (dir : U8) (speedRaw : U32) (s : State) : Host.Outcome State Fault Refusal :=
  pureCall (.frame (packRun dev dir speedRaw)) s

/-- `pack_move` (R101). -/
def execPackMove (dev : Dev) (dir : U8) (stepsRaw : U32) (s : State) : Host.Outcome State Fault Refusal :=
  pureCall (.frame (packMove dev dir stepsRaw)) s

/-- `pack_goto` (R102). -/
def execPackGoto (dev : Dev) (absPos : I32) (s : State) : Host.Outcome State Fault Refusal :=
  pureCall (.frame (packGoto s.params.codes dev absPos)) s

/-- `pack_goto_dir` (R103). -/
def execPackGotoDir (dev : Dev) (dir : U8) (absPos : I32) (s : State) : Host.Outcome State Fault Refusal :=
  pureCall (.frame (packGotoDir s.params.codes dev dir absPos)) s

/-- `pack_noarg` (R104). -/
def execPackNoarg (dev : Dev) (opcode : U8) (s : State) : Host.Outcome State Fault Refusal :=
  pureCall (.frame (packNoarg dev opcode)) s

/-- `pack_get_status_opcodes` (R105). -/
def execPackGetStatusOpcodes (s : State) : Host.Outcome State Fault Refusal :=
  pureCall (.chainBuf (packGetStatusOpcodes s.params.codes)) s

/-- `pack_register_write_1_bytes` (R106). -/
def execPackRegisterWrite1 (dev : Dev) (opcode : U8) (value : U32) (s : State) : Host.Outcome State Fault Refusal :=
  pureCall (.frame (packRegisterWrite1 dev opcode value)) s

/-- `pack_register_write_2_bytes` (R107). -/
def execPackRegisterWrite2 (dev : Dev) (opcode : U8) (value : U32) (s : State) : Host.Outcome State Fault Refusal :=
  pureCall (.frame (packRegisterWrite2 dev opcode value)) s

/-- `pack_register_write_3_bytes` (R108). -/
def execPackRegisterWrite3 (dev : Dev) (opcode : U8) (value : U32) (s : State) : Host.Outcome State Fault Refusal :=
  pureCall (.frame (packRegisterWrite3 dev opcode value)) s

/-- `chain_single` (R109). -/
def execChainSingle (dev : Dev) (frame : Frame) (s : State) : Host.Outcome State Fault Refusal :=
  pureCall (.chainBuf (chainSingle s.params.codes dev frame)) s

/-- `with_clockout` (R110). -/
def execWithClockout (cb : ChainBuf) (s : State) : Host.Outcome State Fault Refusal :=
  pureCall (.readBuf (withClockout s.params.codes cb)) s

/-- `parse_status` (R120). -/
def execParseStatus (reply : ReadBuf) (dev : Dev) (s : State) : Host.Outcome State Fault Refusal :=
  pureCall (.u16 (parseStatus reply dev)) s

/-- `parse_param22` (R122). -/
def execParseParam22 (reply : ReadBuf) (dev : Dev) (s : State) : Host.Outcome State Fault Refusal :=
  pureCall (.position (parseParam22 reply dev)) s

end Sys2Proof.Machine
end

