-- ==== Sys2Proof/Machine/Decoder.lean ====
section
/-! DEFINITION. The StatusDecoder operations (`45_status_decoder.md`): each a pure call of the current caller (decision D39),
its value a function of `Machine/Operands.lean`
or `Machine/Flags.lean`. -/

namespace Sys2Proof.Machine

/-- `decode_compact` (R251). -/
def execDecodeCompact (status : U16) (s : State) : Host.Outcome State Fault Refusal :=
  pureCall (.text (decodeCompact status)) s

/-- `decode_verbose` (R252). -/
def execDecodeVerbose (status : U16) (s : State) : Host.Outcome State Fault Refusal :=
  pureCall (.text (decodeVerbose status)) s

end Sys2Proof.Machine
end

