-- ==== Sys2Proof/Machine/Encoder.lean ====
section
/-! DEFINITION. The RegisterEncoder operations (`41_register_encoder.md`): each a pure call of the current caller (decision D39),
its value a function of `Machine/Operands.lean`
or `Machine/Flags.lean`. -/

namespace Sys2Proof.Machine

/-- `encode_max_speed` (R141). -/
def execEncodeMaxSpeed (stepsPerSec : U32) (s : State) : Host.Outcome State Fault Refusal :=
  pureCall (.u16 (encodeMaxSpeed stepsPerSec)) s

/-- `encode_acc_dec` (R142). -/
def execEncodeAccDec (stepsPerSec2 : U32) (s : State) : Host.Outcome State Fault Refusal :=
  pureCall (.u16 (encodeAccDec stepsPerSec2)) s

/-- `encode_stall_threshold_ma` (R143). -/
def execEncodeStallThresholdMa (ma : U32) (s : State) : Host.Outcome State Fault Refusal :=
  pureCall (.u8 (encodeStallThresholdMa ma)) s

/-- `encode_ocd_threshold_ma` (R144). -/
def execEncodeOcdThresholdMa (ma : U32) (s : State) : Host.Outcome State Fault Refusal :=
  pureCall (.u8 (encodeOcdThresholdMa ma)) s

/-- `encode_microstep_exponent` (R145). -/
def execEncodeMicrostepExponent (divisor : I32) (s : State) : Host.Outcome State Fault Refusal :=
  pureCall (.u8 (encodeMicrostepExponent divisor)) s

end Sys2Proof.Machine
end

