-- ==== Sys2Proof/Machine/Frames.lean ====
section
/-! DEFINITION. The 26 wire frames (`30_encoding.md` R91). The meaning of a frame is the transmit line of the operation in
progress that emits it: one `Transceive` of the buffer that carries the frame (log entry 9). -/

namespace Sys2Proof.Machine

/-- NOP, format NOARG (R86, R104: the filler command). -/
def execFrameNop (s : State) : Host.Outcome State Fault Refusal :=
  emitFrame (fmtNoarg s.params.codes.opcNop) s

/-- SET_PARAM(ACC), format REG16 (R87, R228). -/
def execFrameSetParamAcc (v : BitVec 16) (s : State) : Host.Outcome State Fault Refusal :=
  emitFrame (fmtReg16 (s.params.codes.opcSetParam ||| s.params.codes.regAcc) v) s

/-- SET_PARAM(DEC), format REG16 (R87, R228). -/
def execFrameSetParamDec (v : BitVec 16) (s : State) : Host.Outcome State Fault Refusal :=
  emitFrame (fmtReg16 (s.params.codes.opcSetParam ||| s.params.codes.regDec) v) s

/-- SET_PARAM(MAX_SPEED), format REG16 (R87, R228). -/
def execFrameSetParamMaxSpeed (v : BitVec 16) (s : State) : Host.Outcome State Fault Refusal :=
  emitFrame (fmtReg16 (s.params.codes.opcSetParam ||| s.params.codes.regMaxSpeed) v) s

/-- SET_PARAM(KVAL_HOLD), format REG8 (R87, R228). -/
def execFrameSetParamKvalHold (v : BitVec 8) (s : State) : Host.Outcome State Fault Refusal :=
  emitFrame (fmtReg8 (s.params.codes.opcSetParam ||| s.params.codes.regKvalHold) v) s

/-- SET_PARAM(KVAL_RUN), format REG8 (R87, R228). -/
def execFrameSetParamKvalRun (v : BitVec 8) (s : State) : Host.Outcome State Fault Refusal :=
  emitFrame (fmtReg8 (s.params.codes.opcSetParam ||| s.params.codes.regKvalRun) v) s

/-- SET_PARAM(KVAL_ACC), format REG8 (R87, R228). -/
def execFrameSetParamKvalAcc (v : BitVec 8) (s : State) : Host.Outcome State Fault Refusal :=
  emitFrame (fmtReg8 (s.params.codes.opcSetParam ||| s.params.codes.regKvalAcc) v) s

/-- SET_PARAM(KVAL_DEC), format REG8 (R87, R228). -/
def execFrameSetParamKvalDec (v : BitVec 8) (s : State) : Host.Outcome State Fault Refusal :=
  emitFrame (fmtReg8 (s.params.codes.opcSetParam ||| s.params.codes.regKvalDec) v) s

/-- SET_PARAM(OCD_TH), format REG8 (R87, R228). -/
def execFrameSetParamOcdTh (v : BitVec 8) (s : State) : Host.Outcome State Fault Refusal :=
  emitFrame (fmtReg8 (s.params.codes.opcSetParam ||| s.params.codes.regOcdTh) v) s

/-- SET_PARAM(STALL_TH), format REG8 (R87, R228). -/
def execFrameSetParamStallTh (v : BitVec 8) (s : State) : Host.Outcome State Fault Refusal :=
  emitFrame (fmtReg8 (s.params.codes.opcSetParam ||| s.params.codes.regStallTh) v) s

/-- SET_PARAM(STEP_MODE), format REG8 (R87, R228). -/
def execFrameSetParamStepMode (v : BitVec 8) (s : State) : Host.Outcome State Fault Refusal :=
  emitFrame (fmtReg8 (s.params.codes.opcSetParam ||| s.params.codes.regStepMode) v) s

/-- GET_PARAM(ABS_POS), format NOARG (R86, R163; its buffer is `CB_PARAM`, R90). -/
def execFrameGetParamAbsPos (s : State) : Host.Outcome State Fault Refusal :=
  emitFrame (fmtNoarg s.params.codes.opcGetAbsPos) s

/-- MOVE, direction 0, format DIR22 (R84, R185). -/
def execFrameMove0 (steps : BitVec 22) (s : State) : Host.Outcome State Fault Refusal :=
  emitFrame (fmtDir22 Config.opcMove steps) s

/-- MOVE, direction 1, format DIR22 (R84, R185). -/
def execFrameMove1 (steps : BitVec 22) (s : State) : Host.Outcome State Fault Refusal :=
  emitFrame (fmtDir22 (Config.opcMove ||| 1#8) steps) s

/-- RUN, direction 0, format DIR20 (R83, R184). -/
def execFrameRun0 (speed : BitVec 20) (s : State) : Host.Outcome State Fault Refusal :=
  emitFrame (fmtDir20 Config.opcRun speed) s

/-- RUN, direction 1, format DIR20 (R83, R184). -/
def execFrameRun1 (speed : BitVec 20) (s : State) : Host.Outcome State Fault Refusal :=
  emitFrame (fmtDir20 (Config.opcRun ||| 1#8) speed) s

/-- GOTO, format ABS22 (R85, R186). -/
def execFrameGoto (absPos : BitVec 22) (s : State) : Host.Outcome State Fault Refusal :=
  emitFrame (fmtDir22 s.params.codes.opcGoto absPos) s

/-- GOTO_DIR, direction 0, format DIR22 (R84, R187). -/
def execFrameGotoDir0 (absPos : BitVec 22) (s : State) : Host.Outcome State Fault Refusal :=
  emitFrame (fmtDir22 s.params.codes.opcGotoDir absPos) s

/-- GOTO_DIR, direction 1, format DIR22 (R84, R187). -/
def execFrameGotoDir1 (absPos : BitVec 22) (s : State) : Host.Outcome State Fault Refusal :=
  emitFrame (fmtDir22 (s.params.codes.opcGotoDir ||| 1#8) absPos) s

/-- GO_HOME, format NOARG (R86, R188). -/
def execFrameGoHome (s : State) : Host.Outcome State Fault Refusal :=
  emitFrame (fmtNoarg s.params.codes.opcGoHome) s

/-- SOFT_HIZ, format NOARG (R86, R192). -/
def execFrameSoftHiz (s : State) : Host.Outcome State Fault Refusal :=
  emitFrame (fmtNoarg s.params.codes.opcSoftHiz) s

/-- HARD_HIZ, format NOARG (R86, R192). -/
def execFrameHardHiz (s : State) : Host.Outcome State Fault Refusal :=
  emitFrame (fmtNoarg s.params.codes.opcHardHiz) s

/-- SOFT_STOP, format NOARG (R86, R190). -/
def execFrameSoftStop (s : State) : Host.Outcome State Fault Refusal :=
  emitFrame (fmtNoarg s.params.codes.opcSoftStop) s

/-- HARD_STOP, format NOARG (R86, R191). -/
def execFrameHardStop (s : State) : Host.Outcome State Fault Refusal :=
  emitFrame (fmtNoarg s.params.codes.opcHardStop) s

/-- GET_STATUS, format NOARG (R86, R160; its buffer is `CB_STATUS`, R89). -/
def execFrameGetStatus (s : State) : Host.Outcome State Fault Refusal :=
  emitFrame (fmtNoarg s.params.codes.opcGetStatus) s

/-- RESET_POS, format NOARG (R86, R189). -/
def execFrameResetPos (s : State) : Host.Outcome State Fault Refusal :=
  emitFrame (fmtNoarg s.params.codes.opcResetPos) s

end Sys2Proof.Machine
end

