-- ==== Sys2Proof/Machine/Motion.lean ====
section
/-! DEFINITION. The motion commands and their admission (`43_motion_admission.md`): each operation's lines,
as its rule's pseudocode has them, and its meaning, the call of those
lines. -/

namespace Sys2Proof.Machine

/-- The lines of `run` (R184). -/
def runLines (c : Codes) (dev : U32) (dir : U8) (speed : U32) : List Line :=
  [.checkDev dev, .checkReady, .checkPower, .checkSpeed speed] ++ faultCheckLines c ++ sendLines (packRun 0 dir speed) ++
    [.returnUnit]

/-- `run` (R184). -/
def execRun (dev : U32) (dir : U8) (speed : U32) (s : State) : Host.Outcome State Fault Refusal :=
  call (.run dev dir speed) (runLines s.params.codes dev dir speed) s

/-- The lines of `move` (R185). -/
def moveLines (c : Codes) (dev : U32) (dir : U8) (steps : U32) : List Line :=
  [.checkDev dev, .checkReady, .checkPower, .checkSteps steps] ++ faultCheckLines c ++ sendLines (packMove 0 dir steps) ++
    [.returnUnit]

/-- `move` (R185). -/
def execMove (dev : U32) (dir : U8) (steps : U32) (s : State) : Host.Outcome State Fault Refusal :=
  call (.move dev dir steps) (moveLines s.params.codes dev dir steps) s

/-- The lines of `goto` (R186). -/
def gotoLines (c : Codes) (dev : U32) (absPos : I32) : List Line :=
  [.checkDev dev, .checkReady, .checkPower] ++ sendLines (packGoto c 0 absPos) ++ [.returnUnit]

/-- `goto` (R186). -/
def execGoto (dev : U32) (absPos : I32) (s : State) : Host.Outcome State Fault Refusal :=
  call (.goto dev absPos) (gotoLines s.params.codes dev absPos) s

/-- The lines of `goto_dir` (R187). -/
def gotoDirLines (c : Codes) (dev : U32) (dir : U8) (absPos : I32) : List Line :=
  [.checkDev dev, .checkReady, .checkPower] ++ sendLines (packGotoDir c 0 dir absPos) ++ [.returnUnit]

/-- `goto_dir` (R187). -/
def execGotoDir (dev : U32) (dir : U8) (absPos : I32) (s : State) : Host.Outcome State Fault Refusal :=
  call (.gotoDir dev dir absPos) (gotoDirLines s.params.codes dev dir absPos) s

/-- The lines of `go_home` (R188). -/
def goHomeLines (c : Codes) (dev : U32) : List Line :=
  [.checkDev dev, .checkReady, .checkPower] ++ sendLines (packNoarg 0 c.opcGoHome) ++ [.returnUnit]

/-- `go_home` (R188). -/
def execGoHome (dev : U32) (s : State) : Host.Outcome State Fault Refusal :=
  call (.goHome dev) (goHomeLines s.params.codes dev) s

/-- The lines of `reset_pos` (R189). -/
def resetPosLines (c : Codes) (dev : U32) : List Line :=
  [.checkDev dev, .checkReady] ++ sendLines (packNoarg 0 c.opcResetPos) ++ [.returnUnit]

/-- `reset_pos` (R189). -/
def execResetPos (dev : U32) (s : State) : Host.Outcome State Fault Refusal :=
  call (.resetPos dev) (resetPosLines s.params.codes dev) s

/-- The lines of `soft_stop` (R190). -/
def softStopLines (c : Codes) (dev : U32) : List Line :=
  [.checkDev dev, .checkReady] ++ sendLines (packNoarg 0 c.opcSoftStop) ++ [.returnUnit]

/-- `soft_stop` (R190). -/
def execSoftStop (dev : U32) (s : State) : Host.Outcome State Fault Refusal :=
  call (.softStop dev) (softStopLines s.params.codes dev) s

/-- The lines of `hard_stop` (R191). -/
def hardStopLines (c : Codes) (dev : U32) : List Line :=
  [.checkDev dev, .checkReady] ++ sendLines (packNoarg 0 c.opcHardStop) ++ [.returnUnit]

/-- `hard_stop` (R191). -/
def execHardStop (dev : U32) (s : State) : Host.Outcome State Fault Refusal :=
  call (.hardStop dev) (hardStopLines s.params.codes dev) s

/-- The lines of `disable_outputs` (R192). -/
def disableOutputsLines (c : Codes) (dev : U32) (hard : Bool) : List Line :=
  [.checkDev dev, .checkReady] ++
    sendLines (packNoarg 0 (if hard then c.opcHardHiz else c.opcSoftHiz)) ++ [.returnUnit]

/-- `disable_outputs` (R192). -/
def execDisableOutputs (dev : U32) (hard : Bool) (s : State) : Host.Outcome State Fault Refusal :=
  call (.disableOutputs dev hard) (disableOutputsLines s.params.codes dev hard) s

end Sys2Proof.Machine
end

