-- ==== Sys2Proof/Machine/Reads.lean ====
section
/-! DEFINITION. The ChainController reads (`42_chain_reads.md`): each operation's lines,
as its rule's pseudocode has them, and its meaning, the call of those
lines. -/

namespace Sys2Proof.Machine

/-- The lines of `get_status_all` (R160). -/
def getStatusAllLines (c : Codes) : List Line :=
  [.checkReady, .emit (getStatusFrame c), .returnStatus]

/-- `get_status_all` (R160). -/
def execGetStatusAll (s : State) : Host.Outcome State Fault Refusal :=
  call .getStatusAll (getStatusAllLines s.params.codes) s

/-- The lines of `is_busy` (R162). -/
def isBusyLines (c : Codes) (dev : U32) : List Line :=
  [.checkDev dev, .checkReady, .emit (getStatusFrame c), .returnBusy]

/-- `is_busy` (R162). -/
def execIsBusy (dev : U32) (s : State) : Host.Outcome State Fault Refusal :=
  call (.isBusy dev) (isBusyLines s.params.codes dev) s

/-- The lines of `get_abs_pos` (R163). -/
def getAbsPosLines (c : Codes) (dev : U32) : List Line :=
  [.checkDev dev, .checkReady, .emit (packNoarg 0 c.opcGetAbsPos), .returnPosition]

/-- `get_abs_pos` (R163). -/
def execGetAbsPos (dev : U32) (s : State) : Host.Outcome State Fault Refusal :=
  call (.getAbsPos dev) (getAbsPosLines s.params.codes dev) s

/-- The lines of `wait_while_busy` (R166). -/
def waitWhileBusyLines (dev timeoutMs pollMs : U32) : List Line :=
  [.checkDev dev, .armDeadline dev timeoutMs pollMs]

/-- `wait_while_busy` (R166). -/
def execWaitWhileBusy (dev timeoutMs pollMs : U32) (s : State) : Host.Outcome State Fault Refusal :=
  call (.waitWhileBusy dev timeoutMs pollMs) (waitWhileBusyLines dev timeoutMs pollMs) s

end Sys2Proof.Machine
end

