-- ==== Sys2Proof/Machine/System.lean ====
section
/-! DEFINITION. Initialisation, power, reset and configuration (`44_configuration.md`): each operation's lines,
as its rule's pseudocode has them, and its meaning, the call of those
lines. -/

namespace Sys2Proof.Machine

/-- The axis is in range and its index names no catalog entry: a configuration the spec refuses (I8), for it breaks the
invariant of `10_state.md` R27. -/
def modelMissing (axis : U32) (s : State) : Bool :=
  if h : axis.toNat < Config.nAxes then (s.activeModel ⟨axis.toNat, h⟩).isNone else false

/-- The lines of `init` (R220). -/
def initLines : List Line :=
  [.checkTransport, .setReady, .returnUnit]

/-- `init` (R220). -/
def execInit (s : State) : Host.Outcome State Fault Refusal :=
  call .init initLines s

/-- The lines of `power_enable` (R222). The pin event and the flag write are one step, so that R225 holds of every completed call
whatever other callers do (DEDUCED, log entry 21). -/
def powerEnableLines : List Line :=
  [.checkReady, .checkPowerPin, .switchPower true, .rearm 0, .rearm 1, .returnUnit]

/-- `power_enable` (R222). -/
def execPowerEnable (s : State) : Host.Outcome State Fault Refusal :=
  call .powerEnable powerEnableLines s

/-- The lines of `power_disable` (R224). The pin event and the flag write are one step here too (DEDUCED, log entry 21). -/
def powerDisableLines : List Line :=
  [.checkPowerPin, .switchPower false, .returnUnit]

/-- `power_disable` (R224). -/
def execPowerDisable (s : State) : Host.Outcome State Fault Refusal :=
  call .powerDisable powerDisableLines s

/-- The lines of `reset` (R226). -/
def resetLines (p : Params) : List Line :=
  [.checkResetPin, .acquireLock, .driveReset .low, .sleep p.tResetLowMs, .driveReset .high, .sleep p.tResetHighMs,
    .releaseLock, .returnUnit]

/-- `reset` (R226). -/
def execReset (s : State) : Host.Outcome State Fault Refusal :=
  call .reset (resetLines s.params) s

/-- The lines of `apply_model_params` (R228). -/
def applyModelParamsLines (c : Codes) (dev : U32) (model : MotorModel) : List Line :=
  applyLines c dev model ++ [.returnUnit]

/-- `apply_model_params` (R228). -/
def execApplyModelParams (dev : U32) (model : MotorModel) (s : State) : Host.Outcome State Fault Refusal :=
  call (.applyModelParams dev model) (applyModelParamsLines s.params.codes dev model) s

/-- The lines of `set_active_model` (R232). -/
def setActiveModelLines (axis index : U32) : List Line :=
  [.checkAxis axis, .findIndex index, .returnUnit]

/-- `set_active_model` (R232). -/
def execSetActiveModel (axis index : U32) (s : State) : Host.Outcome State Fault Refusal :=
  call (.setActiveModel axis index) (setActiveModelLines axis index) s

/-- The lines of `set_active_model_by_name` (R233). -/
def setActiveModelByNameLines (axis : U32) (name : String) : List Line :=
  [.checkAxis axis, .findName name, .returnUnit]

/-- `set_active_model_by_name` (R233). -/
def execSetActiveModelByName (axis : U32) (name : String) (s : State) : Host.Outcome State Fault Refusal :=
  call (.setActiveModelByName axis name) (setActiveModelByNameLines axis name) s

/-- The lines of `get_active_model` (R234). -/
def getActiveModelLines (axis : U32) : List Line :=
  [.checkAxis axis, .returnModel]

/-- `get_active_model` (R234). With a valid index the record "always exists"; with none the spec refuses the configuration
(`93_implementation_defined.md` I8). -/
def execGetActiveModel (axis : U32) (s : State) : Host.Outcome State Fault Refusal :=
  if modelMissing axis s then .refused .noCatalogEntry else call (.getActiveModel axis) (getActiveModelLines axis) s

end Sys2Proof.Machine
end

