-- ==== Sys2Proof/Machine/Dispatch.lean ====
section
/-! DEFINITION. The dispatch of an instruction to its meaning, one arm a constructor. -/

namespace Sys2Proof.Machine

def exec (i : Instr) (s : State) : Host.Outcome State Fault Refusal :=
  match i with
  | .frameNop => Sys2Proof.Machine.execFrameNop s
  | .frameSetParamAcc value => Sys2Proof.Machine.execFrameSetParamAcc value s
  | .frameSetParamDec value => Sys2Proof.Machine.execFrameSetParamDec value s
  | .frameSetParamMaxSpeed value => Sys2Proof.Machine.execFrameSetParamMaxSpeed value s
  | .frameSetParamKvalHold value => Sys2Proof.Machine.execFrameSetParamKvalHold value s
  | .frameSetParamKvalRun value => Sys2Proof.Machine.execFrameSetParamKvalRun value s
  | .frameSetParamKvalAcc value => Sys2Proof.Machine.execFrameSetParamKvalAcc value s
  | .frameSetParamKvalDec value => Sys2Proof.Machine.execFrameSetParamKvalDec value s
  | .frameSetParamOcdTh value => Sys2Proof.Machine.execFrameSetParamOcdTh value s
  | .frameSetParamStallTh value => Sys2Proof.Machine.execFrameSetParamStallTh value s
  | .frameSetParamStepMode value => Sys2Proof.Machine.execFrameSetParamStepMode value s
  | .frameGetParamAbsPos => Sys2Proof.Machine.execFrameGetParamAbsPos s
  | .frameMove0 steps => Sys2Proof.Machine.execFrameMove0 steps s
  | .frameMove1 steps => Sys2Proof.Machine.execFrameMove1 steps s
  | .frameRun0 speed => Sys2Proof.Machine.execFrameRun0 speed s
  | .frameRun1 speed => Sys2Proof.Machine.execFrameRun1 speed s
  | .frameGoto absPos => Sys2Proof.Machine.execFrameGoto absPos s
  | .frameGotoDir0 absPos => Sys2Proof.Machine.execFrameGotoDir0 absPos s
  | .frameGotoDir1 absPos => Sys2Proof.Machine.execFrameGotoDir1 absPos s
  | .frameGoHome => Sys2Proof.Machine.execFrameGoHome s
  | .frameSoftHiz => Sys2Proof.Machine.execFrameSoftHiz s
  | .frameHardHiz => Sys2Proof.Machine.execFrameHardHiz s
  | .frameSoftStop => Sys2Proof.Machine.execFrameSoftStop s
  | .frameHardStop => Sys2Proof.Machine.execFrameHardStop s
  | .frameGetStatus => Sys2Proof.Machine.execFrameGetStatus s
  | .frameResetPos => Sys2Proof.Machine.execFrameResetPos s
  | .packRun dev dir speedRaw => Sys2Proof.Machine.execPackRun dev dir speedRaw s
  | .packMove dev dir stepsRaw => Sys2Proof.Machine.execPackMove dev dir stepsRaw s
  | .packGoto dev absPos => Sys2Proof.Machine.execPackGoto dev absPos s
  | .packGotoDir dev dir absPos => Sys2Proof.Machine.execPackGotoDir dev dir absPos s
  | .packNoarg dev opcode => Sys2Proof.Machine.execPackNoarg dev opcode s
  | .packGetStatusOpcodes => Sys2Proof.Machine.execPackGetStatusOpcodes s
  | .packRegisterWrite1 dev opcode value => Sys2Proof.Machine.execPackRegisterWrite1 dev opcode value s
  | .packRegisterWrite2 dev opcode value => Sys2Proof.Machine.execPackRegisterWrite2 dev opcode value s
  | .packRegisterWrite3 dev opcode value => Sys2Proof.Machine.execPackRegisterWrite3 dev opcode value s
  | .chainSingle dev frame => Sys2Proof.Machine.execChainSingle dev frame s
  | .withClockout cb => Sys2Proof.Machine.execWithClockout cb s
  | .parseStatus reply dev => Sys2Proof.Machine.execParseStatus reply dev s
  | .parseParam22 reply dev => Sys2Proof.Machine.execParseParam22 reply dev s
  | .encodeMaxSpeed stepsPerSec => Sys2Proof.Machine.execEncodeMaxSpeed stepsPerSec s
  | .encodeAccDec stepsPerSec2 => Sys2Proof.Machine.execEncodeAccDec stepsPerSec2 s
  | .encodeStallThresholdMa ma => Sys2Proof.Machine.execEncodeStallThresholdMa ma s
  | .encodeOcdThresholdMa ma => Sys2Proof.Machine.execEncodeOcdThresholdMa ma s
  | .encodeMicrostepExponent divisor => Sys2Proof.Machine.execEncodeMicrostepExponent divisor s
  | .getStatusAll => Sys2Proof.Machine.execGetStatusAll s
  | .isBusy dev => Sys2Proof.Machine.execIsBusy dev s
  | .getAbsPos dev => Sys2Proof.Machine.execGetAbsPos dev s
  | .waitWhileBusy dev timeoutMs pollIntervalMs => Sys2Proof.Machine.execWaitWhileBusy dev timeoutMs pollIntervalMs s
  | .run dev dir speed => Sys2Proof.Machine.execRun dev dir speed s
  | .move dev dir steps => Sys2Proof.Machine.execMove dev dir steps s
  | .goto dev absPos => Sys2Proof.Machine.execGoto dev absPos s
  | .gotoDir dev dir absPos => Sys2Proof.Machine.execGotoDir dev dir absPos s
  | .goHome dev => Sys2Proof.Machine.execGoHome dev s
  | .resetPos dev => Sys2Proof.Machine.execResetPos dev s
  | .softStop dev => Sys2Proof.Machine.execSoftStop dev s
  | .hardStop dev => Sys2Proof.Machine.execHardStop dev s
  | .disableOutputs dev hard => Sys2Proof.Machine.execDisableOutputs dev hard s
  | .init => Sys2Proof.Machine.execInit s
  | .powerEnable => Sys2Proof.Machine.execPowerEnable s
  | .powerDisable => Sys2Proof.Machine.execPowerDisable s
  | .reset => Sys2Proof.Machine.execReset s
  | .applyModelParams dev model => Sys2Proof.Machine.execApplyModelParams dev model s
  | .setActiveModel axis index => Sys2Proof.Machine.execSetActiveModel axis index s
  | .setActiveModelByName axis name => Sys2Proof.Machine.execSetActiveModelByName axis name s
  | .getActiveModel axis => Sys2Proof.Machine.execGetActiveModel axis s
  | .decodeCompact status => Sys2Proof.Machine.execDecodeCompact status s
  | .decodeVerbose status => Sys2Proof.Machine.execDecodeVerbose status s

end Sys2Proof.Machine
end

