-- ==== Sys2Proof/Machine/Program.lean ====
section
/-! DEFINITION. The lines of every host operation that runs in a caller's slot (`10_state.md` R32). A pure function has none
(decision D39), and a wire frame is no call (`30_encoding.md` R80). -/

namespace Sys2Proof.Machine

/-- The lines a host call puts into its caller's slot. -/
def program (p : Params) : Instr → Option (List Line)
  | .getStatusAll => some (getStatusAllLines p.codes)
  | .isBusy dev => some (isBusyLines p.codes dev)
  | .getAbsPos dev => some (getAbsPosLines p.codes dev)
  | .waitWhileBusy dev timeoutMs pollIntervalMs => some (waitWhileBusyLines dev timeoutMs pollIntervalMs)
  | .run dev dir speed => some (runLines p.codes dev dir speed)
  | .move dev dir steps => some (moveLines p.codes dev dir steps)
  | .goto dev absPos => some (gotoLines p.codes dev absPos)
  | .gotoDir dev dir absPos => some (gotoDirLines p.codes dev dir absPos)
  | .goHome dev => some (goHomeLines p.codes dev)
  | .resetPos dev => some (resetPosLines p.codes dev)
  | .softStop dev => some (softStopLines p.codes dev)
  | .hardStop dev => some (hardStopLines p.codes dev)
  | .disableOutputs dev hard => some (disableOutputsLines p.codes dev hard)
  | .init => some initLines
  | .powerEnable => some powerEnableLines
  | .powerDisable => some powerDisableLines
  | .reset => some (resetLines p)
  | .applyModelParams dev model => some (applyModelParamsLines p.codes dev model)
  | .setActiveModel axis index => some (setActiveModelLines axis index)
  | .setActiveModelByName axis name => some (setActiveModelByNameLines axis name)
  | .getActiveModel axis => some (getActiveModelLines axis)
  | .packRun .. | .packMove .. | .packGoto .. | .packGotoDir .. | .packNoarg .. | .packGetStatusOpcodes
  | .packRegisterWrite1 .. | .packRegisterWrite2 .. | .packRegisterWrite3 .. | .chainSingle ..
  | .withClockout .. | .parseStatus .. | .parseParam22 .. | .encodeMaxSpeed .. | .encodeAccDec ..
  | .encodeStallThresholdMa .. | .encodeOcdThresholdMa .. | .encodeMicrostepExponent .. | .decodeCompact ..
  | .decodeVerbose .. => none
  | .frameNop | .frameSetParamAcc .. | .frameSetParamDec .. | .frameSetParamMaxSpeed ..
  | .frameSetParamKvalHold .. | .frameSetParamKvalRun .. | .frameSetParamKvalAcc .. | .frameSetParamKvalDec ..
  | .frameSetParamOcdTh .. | .frameSetParamStallTh .. | .frameSetParamStepMode .. | .frameGetParamAbsPos
  | .frameMove0 .. | .frameMove1 .. | .frameRun0 .. | .frameRun1 .. | .frameGoto .. | .frameGotoDir0 ..
  | .frameGotoDir1 .. | .frameGoHome | .frameSoftHiz | .frameHardHiz | .frameSoftStop | .frameHardStop
  | .frameGetStatus | .frameResetPos => none

end Sys2Proof.Machine
end

