-- ==== Sys2Proof/Machine/Cycle.lean ====
section
/-! DEFINITION. One step of the machine (`10_state.md` R33, `20_memory.md` R70): the scheduler picks a caller, and that caller
takes one step. Also where a word of the opcode table is put so that the next step runs it. -/

namespace Sys2Proof.Machine

/-- An outcome whose next state is changed by `f`. -/
def onNext (f : State → State) : Host.Outcome State Fault Refusal → Host.Outcome State Fault Refusal
  | .next s => .next (f s)
  | .fault r => .fault r
  | .refused r => .refused r

/-- A line that reads the answer of the operation's last transceive. -/
def Line.readsReply : Line → Bool
  | .needOk | .testFault | .returnStatus | .returnBusy | .returnPosition | .testPoll .. => true
  | .checkDev .. | .checkReady | .checkPower | .checkSpeed .. | .checkSteps .. | .checkAxis .. | .checkTransport
  | .checkPowerPin | .checkResetPin | .tryReady .. | .acquireLock | .releaseLock | .emit .. | .armDeadline ..
  | .testDeadline .. | .sleep .. | .driveReset .. | .setReady | .switchPower .. | .rearm ..
  | .findIndex .. | .findName .. | .setAxis .. | .persist .. | .returnModel | .returnUnit => false

/-- The transmit line: the frame is fetched, decoded and executed, and the operation goes on to its next line. -/
def stepEmit (f : Frame) (s : State) : Host.Outcome State Fault Refusal :=
  match decodeFrame s.params.codes f with
  | .ok i => onNext (State.advance s.cur) (exec i s)
  | .error _ => .refused .unlistedFrame

/-- One line of the current caller's operation. -/
def stepLine (a : Activation) (s : State) : Host.Outcome State Fault Refusal :=
  match a.rest with
  | [] => .next (s.lineStep s.cur)
  | l :: _ =>
    match l with
    | .emit f => stepEmit f s
    | _ =>
      if l.readsReply && a.reply.isNone then .fault .noReply
      else if l = .returnModel ∧ s.activeModel a.dev = none then .refused .noCatalogEntry
      else .next (s.lineStep s.cur)

/-- The current caller's next host call: begun, so that its lines are the caller's next steps, or run whole (log entry 6). A
pure function is evaluated at once. -/
def stepCall (whole : Bool) (i : Instr) (s : State) : Host.Outcome State Fault Refusal :=
  match whole, program s.params i with
  | false, some lines => .next (s.beginCall s.cur i lines)
  | _, _ => exec i s

/-- The current caller's calls after its next one is fetched. -/
def State.popCall (s : State) : State := s.setCaller s.cur { s.caller s.cur with calls := (s.caller s.cur).calls.tail }

/-- The state in which the scheduler's choice is made: the choice is used up, and its caller is the current one. -/
def State.scheduled (s : State) : State := { s.takePick with cur := s.nextPick.caller }

/-- The instruction is a host operation that runs in its caller's slot, and not a pure function or a wire frame (R32, D39). -/
def runsInSlot (i : Instr) (s : State) : Bool := (program s.params i).isSome

/-- The step of the current caller: the next line of its operation; else its next call; else it waits for a call (R291).
While another caller holds the lock, in its reset sequence, the caller "has no step until it is released" (`20_memory.md` R71;
R70 and `60_exceptions.md` R275 read the same): neither a line of its operation nor the beginning of one. That this takes in the
lines that make no transceive is the model's choice (DEDUCED, log entry 20). A pure function is evaluated "without a step" and
"from any context" (D39), so it does not wait. -/
def stepCaller (whole : Bool) (s : State) : Host.Outcome State Fault Refusal :=
  match s.slot s.cur with
  | .active a => if s.lockOpen s.cur then stepLine a s else .next s
  | .idle =>
    match (s.caller s.cur).calls with
    | [] => .next s
    | i :: _ => if runsInSlot i s && !s.lockOpen s.cur then .next s else stepCall whole i s.popCall

/-- One step: the scheduler's choice and the step of the caller it picks. -/
def cycle (s : State) : Host.Outcome State Fault Refusal := stepCaller s.nextPick.whole s.scheduled

/-! ### Placing a word of the opcode table -/

/-- A lock that the current caller can take: held by another caller, it is freed. -/
def State.openLock (s : State) : State := if s.lockOpen s.cur then s else { s with lock := none }

/-- The slot with one more line before its next: an operation in progress goes on after it, an idle slot holds a bare transfer
of the frame (log entry 15). -/
def placeLine (i : Instr) (l : Line) : Slot → Slot
  | .idle => .active { op := i, k := 0, dev := 0, reply := none, rest := [l] }
  | .active a => .active { a with rest := l :: a.rest }

/-- The frame that a table word's instruction has in the state's configuration; a word of no instruction stays as it is. -/
def placedFrame (c : Codes) (nbits w : Nat) : Frame :=
  ((decodeTableWord nbits w).bind (encodeFrame c)).getD (Frame.ofWord (tableWord nbits w))

/-- The state whose next step fetches the frame of this table word at the current caller's transmit line and runs it. -/
def State.placeWord (s : State) (nbits w : Nat) : State :=
  let f := placedFrame s.params.codes nbits w
  let i := (decodeTableWord nbits w).getD .frameNop
  let s := { s with env := { s.env with picks := { s.env.picks with script := ⟨s.cur, false⟩ :: s.env.picks.script } } }
  (s.setSlot s.cur (placeLine i (.emit f) (s.slot s.cur))).openLock

end Sys2Proof.Machine
end

