-- ==== Sys2Proof/Machine/Step.lean ====
section
/-! DEFINITION. The machine's one step, and where a word of the opcode table stands for the step to fetch it. -/

namespace Sys2Proof.Machine

/-- One step of the machine (`10_state.md` R33, `20_memory.md` R70). -/
def step (s : State) : Host.Outcome State Fault Refusal := cycle s

/-- The state in which the very next step runs this word of the opcode table (log entry 15). -/
def State.withFetchWord (s : State) (nbits w : Nat) : State := s.placeWord nbits w

end Sys2Proof.Machine
end

