-- ==== Sys2Proof/Safety.lean ====
section
/-! DEFINITION. The terms claims are stated in: kinds of instructions, the state an operation leaves when it has returned, the
frames on the wire, and the invariant of the machine. -/

namespace Sys2Proof

/-- A wire frame of `30_encoding.md` R91. -/
def Instr.isFrame (i : Instr) : Bool := (encodeFrame Config.refCodes i).isSome

/-- A host operation that runs in its caller's slot (`10_state.md` R32). -/
def Instr.isCall (i : Instr) : Bool := (Machine.program Config.refParams i).isSome

/-- A pure function of FrameCodec, RegisterEncoder or StatusDecoder (decision D39). -/
def Instr.isPure (i : Instr) : Bool := !i.isFrame && !i.isCall

namespace Machine

/-! ### What an operation leaves -/

/-- The log after events of caller `g`. -/
def State.logAfter (s : State) (g : Nat) (evs : List Event) : List Entry := s.log ++ evs.map (Entry.mk g)

/-- The state in which the current caller's operation `op` has returned `r`, after the events `evs` and `n` transceives:
`Return(op, r)` is in the log, the result is the caller's, its slot is idle, and NOTHING ELSE differs from `s`. -/
def State.returned (s : State) (op : Instr) (evs : List Event) (r : Result) (n : Nat) : State :=
  { s with
    log := s.logAfter s.cur (evs ++ [.ret op r])
    callers := setCallerAt s.callers s.cur { s.caller s.cur with slot := .idle, result := some r }
    env := { s.env with answers := s.env.answers.drop n } }

/-- The state in which the current caller's operation `a` has made one transceive of `tx`: one event, one draw, the answer in
the operation's locals, and NOTHING ELSE differs from `s`. -/
def State.sent (s : State) (a : Activation) (tx : Buf) : State :=
  { s with
    log := s.logAfter s.cur [.transceive tx (replyTo tx (s.answer 0))]
    callers := setCallerAt s.callers s.cur { s.caller s.cur with slot := .active { a with reply := some (s.answer 0) } }
    env := { s.env with answers := s.env.answers.drop 1 } }

/-- The state in which a pure function has given `v` to the current caller: NOTHING ELSE differs from `s`. -/
def State.given (s : State) (v : Value) : State :=
  { s with callers := setCallerAt s.callers s.cur { s.caller s.cur with result := some (.ok v) } }

/-- The chain buffer with one frame in slot `d` and `NOP_FRAME` in the other (R88). -/
def singleSlot (c : Codes) (d : Dev) (f : Frame) : ChainBuf :=
  let nop : Frame := ⟨c.opcNop, 0#8, 0#8, 0#8⟩
  if d = 0 then ⟨f, nop⟩ else ⟨nop, f⟩

/-- `CB_SINGLE(d, f)` (R88). -/
def singleBuf (c : Codes) (d : Dev) (f : Frame) : Buf := .phase (singleSlot c d f)

/-- `[OPC_NOP] * 8`: the clock-out phase (R89). -/
def clockOutPhase (c : Codes) : ChainBuf :=
  ⟨⟨c.opcNop, c.opcNop, c.opcNop, c.opcNop⟩, ⟨c.opcNop, c.opcNop, c.opcNop, c.opcNop⟩⟩

/-- `CB_STATUS` (R89, `42_chain_reads.md` R161). -/
def statusBuf (c : Codes) : Buf :=
  .read ⟨⟨⟨c.opcGetStatus, 0#8, 0#8, 0#8⟩, ⟨c.opcGetStatus, 0#8, 0#8, 0#8⟩⟩, clockOutPhase c⟩

/-- `CB_PARAM(d, ABS_POS)` (R90, R163). -/
def positionBuf (c : Codes) (d : Dev) : Buf :=
  .read ⟨singleSlot c d ⟨c.opcGetParam ||| c.regAbsPos, 0#8, 0#8, 0#8⟩, clockOutPhase c⟩

/-- A transceive event with the answer the transport gives it. -/
def exchange (tx : Buf) (a : Answer) : Event := .transceive tx (replyTo tx a)

/-- The result of a one-transceive command (R181). -/
def commandResult : Answer → Result
  | .ok _ => .ok .unit
  | .err e => .err (.transportError e)

/-- A status answer that shows a latched fault of device `d` (R183): a failed read shows none. -/
def showsFault (d : Dev) : Answer → Bool
  | .ok rx => faultLatched (parseStatus rx d)
  | .err _ => false

/-- What a read returns for the transport's answer: a value of the received bytes, or the transport's error (R160, R163). -/
def readResult (f : ReadBuf → Value) : Answer → Result
  | .ok rx => .ok (f rx)
  | .err e => .err (.transportError e)

/-- The answer is an error. -/
def failed : Answer → Bool
  | .ok _ => false
  | .err _ => true

/-- A poll's answer that shows device `d` busy (R162). -/
def showsBusy (d : Dev) : Answer → Bool
  | .ok rx => (parseStatus rx d).getLsbD 1
  | .err _ => false

/-- The current caller can call an operation that transmits: its slot is idle, no other caller holds the lock, and the codes are
ones the spec admits (R8; it refuses the others, I8). -/
def State.canCall (s : State) : Prop :=
  s.slot s.cur = .idle ∧ s.lockOpen s.cur = true ∧ s.params.codes.legal = true

/-- The current caller's operation `a` can transmit: no other caller holds the lock, and the codes are ones the spec admits. -/
def State.canTransmit (s : State) (a : Activation) : Prop :=
  s.slot s.cur = .active a ∧ s.lockOpen s.cur = true ∧ s.params.codes.legal = true

/-- Transceives of these buffers, one after another, the first answered by the `n`-th answer to come. -/
def State.exchanges (s : State) : Nat → List Buf → List Event
  | _, [] => []
  | n, b :: bs => exchange b (s.answer n) :: State.exchanges s (n + 1) bs

/-- The events of the polls 0 to `j` of a wait: a status read each, a sleep before every one but the first (R166). -/
def State.waitEvents (s : State) (pollMs : Nat) : Nat → List Event
  | 0 => [exchange (statusBuf s.params.codes) (s.answer 0)]
  | j + 1 => State.waitEvents s pollMs j ++ [.sleep pollMs,
      exchange (statusBuf s.params.codes) (s.answer (j + 1))]

/-- The ten frames of R227's table, in its order, over the opcode and address parameters of R7. -/
def paramFrames (c : Codes) (m : MotorModel) : List Frame :=
  let one (reg v : Byte) : Frame := ⟨c.opcSetParam ||| reg, v, 0#8, 0#8⟩
  let two (reg : Byte) (v : U16) : Frame := ⟨c.opcSetParam ||| reg, BitVec.ofNat 8 (v.toNat / 256), BitVec.ofNat 8 v.toNat, 0#8⟩
  [one c.regStepMode (encodeMicrostepExponent m.microstep), one c.regKvalHold m.kvalHold, one c.regKvalRun m.kvalRun, one c.regKvalAcc m.kvalAcc,
   one c.regKvalDec m.kvalDec, one c.regOcdTh (encodeOcdThresholdMa m.ocdThresholdMa), two c.regAcc (encodeAccDec m.acc),
   two c.regDec (encodeAccDec m.dec), two c.regMaxSpeed (encodeMaxSpeed m.maxSpeed),
   one c.regStallTh (encodeStallThresholdMa m.stallThresholdMa)]

/-- The ten transfers that apply a model to device `d` (R228). -/
def paramBufs (c : Codes) (d : Dev) (m : MotorModel) : List Buf := (paramFrames c m).map (singleBuf c d)

/-- The transfers that re-arm axis `d`: those of its active model, or none where its index is invalid (R222). -/
def State.rearmBufs (s : State) (d : Dev) : List Buf :=
  match s.params.catalog[(if d = 0 then s.axis0 else s.axis1).toNat]? with
  | some m => paramBufs s.params.codes d m
  | none => []

/-- The device operand of an operation that takes one (R94). -/
def devOperand : Instr → Option U32
  | .isBusy dev | .getAbsPos dev | .waitWhileBusy dev _ _ | .run dev _ _ | .move dev _ _ | .goto dev _ | .gotoDir dev _ _
  | .goHome dev | .resetPos dev | .softStop dev | .hardStop dev | .disableOutputs dev _ | .applyModelParams dev _ => some dev
  | _ => none

/-- The operations that need an initialised chain (R22, R222): those that transmit. -/
def needsChain : Instr → Bool
  | .getStatusAll | .powerEnable => true
  | i => (devOperand i).isSome

/-- The state once the operation `i` has armed its deadline: `wait_while_busy` with a timeout other than 0 draws one (R269). -/
def State.armedFor (s : State) : Instr → State
  | .waitWhileBusy _ timeoutMs _ => if timeoutMs = 0#32 then s else s.takeDeadline
  | _ => s

/-- How many `Deadline()` queries of a wait answer false (R269): none with timeout 0. -/
def State.deadlineFor (s : State) (timeoutMs : U32) : Nat := if timeoutMs = 0#32 then 0 else s.deadlineCount

/-- `"0x"` and the four upper-case hexadecimal digits of a word (R250), most significant first. -/
def hexText (w : U16) : String :=
  "0x" ++ String.ofList ([4096, 256, 16, 1].map fun q => (Nat.digitChar (w.toNat / q % 16)).toUpper)

/-- Two states with the same block state: `ready`, `power_enabled`, `transport`, `axis_model`, `lock` and the parameters (R20). -/
def sameBlock (s t : State) : Prop :=
  t.ready = s.ready ∧ t.powerEnabled = s.powerEnabled ∧ t.transport = s.transport ∧ t.axis0 = s.axis0 ∧ t.axis1 = s.axis1 ∧
  t.lock = s.lock ∧ t.params = s.params

/-- The operations gated by the power state (R193). -/
def powerGated : Instr → Bool
  | .run .. | .move .. | .goto .. | .gotoDir .. | .goHome .. => true
  | _ => false

/-- The errors of `prologue(dev)` (R180): an out-of-range index gives InvalidArgument before everything, then an uninitialised
chain NotReady; no event, and nothing changes but the result (and, for `wait_while_busy`, the deadline armed before its first
readiness test, R166). -/
def State.prologueErrors (s : State) (i : Instr) (dev : U32) : Prop :=
  (2 ≤ dev.toNat → exec i s = .next (s.returned i [] (.err .invalidArgument) 0)) ∧
  (dev.toNat < 2 → s.ready = false → exec i s = .next ((s.armedFor i).returned i [] (.err .notReady) 0))

/-- The error of the power gate (R184, R193): with an index in range and the chain ready, PowerDisabled, and no event. -/
def State.powerError (s : State) (i : Instr) (dev : U32) : Prop :=
  dev.toNat < 2 → s.ready = true → s.powerEnabled = false → exec i s = .next (s.returned i [] (.err .powerDisabled) 0)

/-- A step whose scheduler's choices are these, before any other. -/
def State.withPicks (s : State) (ps : List Pick) : State :=
  { s with env := { s.env with picks := { s.env.picks with script := ps } } }

/-! ### The wire -/

/-- The buffers an entry puts on the wire. -/
def Entry.tx : Entry → Option Buf
  | ⟨_, .transceive tx _⟩ => some tx
  | ⟨_, .resetPin _⟩ | ⟨_, .powerPin _⟩ | ⟨_, .sleep _⟩ | ⟨_, .persist ..⟩ | ⟨_, .ret ..⟩ => none

/-- The frame a buffer carries for device `d`: the one in its slot of the first phase (R63). -/
def frameFor (d : Dev) : Buf → Frame
  | .phase cb => cb.slot d
  | .read rb => rb.opcodePhase.slot d

/-- An external primitive, that is, any event but `Return` (R31). -/
def Event.isPrimitive : Event → Bool
  | .transceive .. | .resetPin .. | .powerPin .. | .sleep .. | .persist .. => true
  | .ret .. => false

/-- The level a log last drove the power pin to (R225). -/
def powerPinLevel (log : List Entry) : Option Bool :=
  (log.filterMap fun e => match e.event with
    | .powerPin on => some on
    | .transceive .. | .resetPin .. | .sleep .. | .persist .. | .ret .. => none).getLast?

/-! ### The invariant -/

/-- A readiness test stands before every line that transmits or enables power, and before the test inside `fault_check`. -/
def guarded : List Line → Bool
  | [] => true
  | .checkReady :: _ => true
  | .emit _ :: _ => false
  | .tryReady _ :: _ => false
  | .switchPower on :: ls => !on && guarded ls
  | _ :: ls => guarded ls

/-- The lines keep the lock's discipline (`20_memory.md` R71, `44_configuration.md` R226), `held` saying whether their caller
holds it: between acquiring and releasing it they only drive the reset pin and sleep, and they drive that pin only there. -/
def lockDisciplined : Bool → List Line → Bool
  | held, [] => !held
  | held, .acquireLock :: ls => !held && lockDisciplined true ls
  | held, .releaseLock :: ls => held && lockDisciplined false ls
  | held, .driveReset _ :: ls => held && lockDisciplined held ls
  | held, .sleep _ :: ls => lockDisciplined held ls
  | held, _ :: ls => !held && lockDisciplined held ls

/-- The opcode bytes of the motion frames: RUN, MOVE, GOTO, GOTO_DIR and GO_HOME (R91). -/
def motionOpcodes (c : Codes) : List Byte :=
  [Config.opcRun, Config.opcRun ||| 1#8, Config.opcMove, Config.opcMove ||| 1#8, c.opcGoto, c.opcGotoDir, c.opcGotoDir ||| 1#8,
   c.opcGoHome]

/-- The lines `pre` of the operation `a` are done, so their checks have passed, and what they tested and no step can undo still
holds: the device, readiness, the step limit. (Power and the speed ceiling can change after their check, R72.) -/
def passed (s : State) (a : Activation) (pre : List Line) : Prop :=
  (∀ dev, .checkDev dev ∈ pre → dev.toNat = a.dev.val) ∧ (.checkReady ∈ pre → s.ready = true) ∧
  (∀ steps, .checkSteps steps ∈ pre → steps.toNat ≤ s.params.maxMoveSteps.toNat)

/-- The admission policy of an operation in progress (R180 to R188, R195): a motion command is at a line of its own program, with
every check before that line done; and no other operation has a motion frame to send. -/
def admitted (s : State) (a : Activation) : Prop :=
  if powerGated a.op = true then ∃ pre, program s.params a.op = some (pre ++ a.rest) ∧ passed s a pre
  else ∀ f, .emit f ∈ a.rest → f.b0 ∉ motionOpcodes s.params.codes

/-- The operations that drive the power pin (R222, R224). -/
def drivesPower : Instr → Bool
  | .powerEnable | .powerDisable => true
  | _ => false

/-- A `power_enable` or `power_disable` has still to drive the pin, and until then it can only raise NotReady. -/
def awaitsPin : List Line → Bool
  | .checkReady :: ls | .checkPowerPin :: ls => awaitsPin ls
  | .switchPower _ :: _ => true
  | _ => false

/-- A `power_enable` or `power_disable` has completed, and not with NotReady (R225). -/
def powerCompleted (s : State) : Prop :=
  ∃ g i r, (⟨g, .ret i r⟩ : Entry) ∈ s.log ∧ drivesPower i = true ∧ r ≠ .err .notReady

/-- The invariant of the machine. -/
structure State.Inv (s : State) : Prop where
  /-- The parameters are ones the spec admits (R7, R8). -/
  params_legal : s.params.legal = true
  /-- `10_state.md` R24. -/
  power_ready : s.powerEnabled = true → s.ready = true
  /-- Every operation in progress has passed its readiness test before it transmits or enables power (R22). -/
  slots_guarded : ∀ g a, s.slot g = .active a → s.ready = true ∨ guarded a.rest = true
  /-- `10_state.md` R27. -/
  axes_valid : s.axis0 < catalogCount s.params.catalog ∧ s.axis1 < catalogCount s.params.catalog
  /-- Every index about to be selected is valid (R27). -/
  pending_valid : ∀ g a i, s.slot g = .active a → Line.setAxis i ∈ a.rest → i < catalogCount s.params.catalog
  /-- Who holds the lock is in the reset sequence, and no one else drives the reset pin (R71, R226). -/
  lock_disciplined : ∀ g a, s.slot g = .active a → lockDisciplined (s.lock == some g) a.rest = true
  /-- A motion frame still to send belongs to the operation that emits it, with its checks before it or passed (R195). -/
  motion_admitted : ∀ g a, s.slot g = .active a → admitted s a
  /-- The pin, once driven, has the level of the flag (R225). -/
  pin_agrees : powerPinLevel s.log = none ∨ powerPinLevel s.log = some s.powerEnabled
  /-- A power operation in progress that has passed its pin line has driven the pin, and so has one that completed (R225). -/
  pin_driven : (∀ g a, s.slot g = .active a → drivesPower a.op = true → awaitsPin a.rest = true ∨ powerPinLevel s.log ≠ none) ∧
    (powerCompleted s → powerPinLevel s.log ≠ none)
  /-- A lock held is held by a caller with an operation in progress (R71). -/
  lock_active : ∀ h, s.lock = some h → s.slot h ≠ .idle

end Machine

end Sys2Proof
end

