-- ==== Sys2Proof/Certificates/Slice0/Obligations.lean ====
section
/-! DEFINITION. The statements for the provers, from the spec's numbered rules. -/

open Sys2Proof Sys2Proof.Machine

/-! ### Encoding -/

/-- In every legal configuration, decoding the frame of any wire instruction gives that instruction back, with every value of its
field (R83 to R87, R91). Both sides are the model's own functions; `DecodesWrittenWords` says that the bits are the spec's. -/
def Obligations.DecodeOfEncode : Prop :=
  ∀ (c : Codes) (i : Instr) (f : Frame), c.legal = true → encodeFrame c i = some f → decodeFrame c f = .ok i

/-- Every frame that decodes is the encoding of what it decodes to: no bit is dropped and no reserved bit is accepted (R92). -/
def Obligations.EncodeOfDecode : Prop :=
  ∀ (c : Codes) (f : Frame) (i : Instr), decodeFrame c f = .ok i → encodeFrame c i = some f

/-- Words written out from the spec's formats and examples decode to the instructions they stand for (R83 to R87). -/
def Obligations.DecodesWrittenWords : Prop :=
  decodeTableWord 32 0x500003E8 = some (.frameRun0 1000) ∧ decodeTableWord 32 0x510FFFFF = some (.frameRun1 0xFFFFF) ∧
  decodeTableWord 32 0x40000064 = some (.frameMove0 100) ∧ decodeTableWord 32 0x603FFFFF = some (.frameGoto 0x3FFFFF) ∧
  decodeTableWord 32 0x69012345 = some (.frameGotoDir1 0x12345) ∧ decodeTableWord 32 0x0703FF00 = some (.frameSetParamMaxSpeed 0x3FF) ∧
  decodeTableWord 32 0x16040000 = some (.frameSetParamStepMode 4) ∧ decodeTableWord 32 0xD0000000 = some .frameGetStatus ∧
  decodeTableWord 32 0x00000000 = some .frameNop ∧ decodeTableWord 32 0xB8000001 = none ∧ decodeTableWord 32 0x50100000 = none

/-- In the reference configuration the opcode bytes are the 26 of R91, which are distinct; and in every configuration the frames
of the instructions start with its 26 opcode bytes, each with some. -/
def Obligations.OpcodeBytesAreTheTables : Prop :=
  let bytes : List Byte :=
    [0x00#8, 0x05#8, 0x06#8, 0x07#8, 0x09#8, 0x0A#8, 0x0B#8, 0x0C#8, 0x13#8, 0x14#8, 0x16#8, 0x21#8, 0x40#8, 0x41#8, 0x50#8,
     0x51#8, 0x60#8, 0x68#8, 0x69#8, 0x70#8, 0xA0#8, 0xA8#8, 0xB0#8, 0xB8#8, 0xD0#8, 0xD8#8]
  bytes.length = 26 ∧ bytes.Nodup ∧ (∀ b, b ∈ Config.refCodes.emittedOpcodes ↔ b ∈ bytes) ∧ Config.refCodes.legal = true ∧
  (∀ (c : Codes) (i : Instr) (f : Frame), encodeFrame c i = some f → f.b0 ∈ c.emittedOpcodes) ∧
  (∀ (c : Codes), ∀ b ∈ c.emittedOpcodes, ∃ (i : Instr) (f : Frame), encodeFrame c i = some f ∧ f.b0 = b)

/-! ### Wire frames: the transmit line of an operation in progress -/

/-- RUN/0 and RUN/1: the buffer carries the word `0101000 d 0000 speed[19:0]` in the operation's slot and NOP in the other (R83,
R88); one transceive, and nothing else changes. -/
def Obligations.RunFramesTransmit : Prop :=
  ∀ (s : State) (a : Activation) (v : BitVec 20), s.canTransmit a → let c := s.params.codes
    exec (.frameRun0 v) s = .next (s.sent a (singleBuf c a.dev (Frame.ofWord (0x500#12 ++ v)))) ∧
    exec (.frameRun1 v) s = .next (s.sent a (singleBuf c a.dev (Frame.ofWord (0x510#12 ++ v))))

/-- MOVE/0 and MOVE/1: the word `0100000 d 00 steps[21:0]` (R84, R88). -/
def Obligations.MoveFramesTransmit : Prop :=
  ∀ (s : State) (a : Activation) (v : BitVec 22), s.canTransmit a → let c := s.params.codes
    exec (.frameMove0 v) s = .next (s.sent a (singleBuf c a.dev (Frame.ofWord (0x100#10 ++ v)))) ∧
    exec (.frameMove1 v) s = .next (s.sent a (singleBuf c a.dev (Frame.ofWord (0x104#10 ++ v))))

/-- GOTO, GOTO_DIR/0, GOTO_DIR/1: the opcode byte, `00`, and 22 bits of position (R84, R85, R88). -/
def Obligations.GotoFramesTransmit : Prop :=
  ∀ (s : State) (a : Activation) (v : BitVec 22), s.canTransmit a → let c := s.params.codes
    exec (.frameGoto v) s = .next (s.sent a (singleBuf c a.dev (Frame.ofWord (c.opcGoto ++ 0#2 ++ v)))) ∧
    exec (.frameGotoDir0 v) s = .next (s.sent a (singleBuf c a.dev (Frame.ofWord (c.opcGotoDir ++ 0#2 ++ v)))) ∧
    exec (.frameGotoDir1 v) s = .next (s.sent a (singleBuf c a.dev (Frame.ofWord ((c.opcGotoDir ||| 1#8) ++ 0#2 ++ v))))

/-- The argument-free commands: the opcode byte and three zero bytes (R86, R88). -/
def Obligations.ArgumentFreeFramesTransmit : Prop :=
  ∀ (s : State) (a : Activation), s.canTransmit a → let c := s.params.codes
    exec .frameNop s = .next (s.sent a (singleBuf c a.dev ⟨c.opcNop, 0#8, 0#8, 0#8⟩)) ∧
    exec .frameGoHome s = .next (s.sent a (singleBuf c a.dev ⟨c.opcGoHome, 0#8, 0#8, 0#8⟩)) ∧
    exec .frameSoftHiz s = .next (s.sent a (singleBuf c a.dev ⟨c.opcSoftHiz, 0#8, 0#8, 0#8⟩)) ∧
    exec .frameHardHiz s = .next (s.sent a (singleBuf c a.dev ⟨c.opcHardHiz, 0#8, 0#8, 0#8⟩)) ∧
    exec .frameSoftStop s = .next (s.sent a (singleBuf c a.dev ⟨c.opcSoftStop, 0#8, 0#8, 0#8⟩)) ∧
    exec .frameHardStop s = .next (s.sent a (singleBuf c a.dev ⟨c.opcHardStop, 0#8, 0#8, 0#8⟩)) ∧
    exec .frameResetPos s = .next (s.sent a (singleBuf c a.dev ⟨c.opcResetPos, 0#8, 0#8, 0#8⟩))

/-- The SET_PARAM frames: REG8 registers carry the value in byte 1, REG16 registers in bytes 1 and 2, the rest zero (R87, R88). -/
def Obligations.RegisterFramesTransmit : Prop :=
  ∀ (s : State) (a : Activation) (v : BitVec 8) (w : BitVec 16), s.canTransmit a → let c := s.params.codes
    exec (.frameSetParamStepMode v) s = .next (s.sent a (singleBuf c a.dev ⟨c.opcSetParam ||| c.regStepMode, v, 0#8, 0#8⟩)) ∧
    exec (.frameSetParamKvalHold v) s = .next (s.sent a (singleBuf c a.dev ⟨c.opcSetParam ||| c.regKvalHold, v, 0#8, 0#8⟩)) ∧
    exec (.frameSetParamKvalRun v) s = .next (s.sent a (singleBuf c a.dev ⟨c.opcSetParam ||| c.regKvalRun, v, 0#8, 0#8⟩)) ∧
    exec (.frameSetParamKvalAcc v) s = .next (s.sent a (singleBuf c a.dev ⟨c.opcSetParam ||| c.regKvalAcc, v, 0#8, 0#8⟩)) ∧
    exec (.frameSetParamKvalDec v) s = .next (s.sent a (singleBuf c a.dev ⟨c.opcSetParam ||| c.regKvalDec, v, 0#8, 0#8⟩)) ∧
    exec (.frameSetParamOcdTh v) s = .next (s.sent a (singleBuf c a.dev ⟨c.opcSetParam ||| c.regOcdTh, v, 0#8, 0#8⟩)) ∧
    exec (.frameSetParamStallTh v) s = .next (s.sent a (singleBuf c a.dev ⟨c.opcSetParam ||| c.regStallTh, v, 0#8, 0#8⟩)) ∧
    exec (.frameSetParamAcc w) s = .next (s.sent a (singleBuf c a.dev (Frame.ofWord ((c.opcSetParam ||| c.regAcc) ++ w ++ 0#8)))) ∧
    exec (.frameSetParamDec w) s = .next (s.sent a (singleBuf c a.dev (Frame.ofWord ((c.opcSetParam ||| c.regDec) ++ w ++ 0#8)))) ∧
    exec (.frameSetParamMaxSpeed w) s = .next (s.sent a (singleBuf c a.dev (Frame.ofWord ((c.opcSetParam ||| c.regMaxSpeed) ++ w ++ 0#8))))

/-- GET_STATUS and GET_PARAM(ABS_POS) go out in 16-byte buffers with a clock-out phase: `CB_STATUS` in every slot, `CB_PARAM` in
the operation's slot (R89, R90). -/
def Obligations.TwoPhaseFramesTransmit : Prop :=
  ∀ (s : State) (a : Activation), s.canTransmit a → let c := s.params.codes
    exec .frameGetStatus s = .next (s.sent a (statusBuf c)) ∧ exec .frameGetParamAbsPos s = .next (s.sent a (positionBuf c a.dev))

/-- A wire frame is emitted only by an operation in progress, and waits for the lock: with an idle slot it is refused by name
(the model's choice, log entry 9); with the lock held by another caller nothing happens (R71). -/
def Obligations.FramesWaitForTheLock : Prop :=
  ∀ (i : Instr) (s : State), i.isFrame = true →
    (s.slot s.cur = .idle → exec i s = .refused .frameOutsideOperation) ∧
    (∀ a, s.slot s.cur = .active a → s.lockOpen s.cur = false → exec i s = .next s)

/-! ### FrameCodec -/

/-- `pack_run` (R100): opcode 0x50 with the direction in bit 0; bytes 1 to 3 are the low 20 bits of the speed, big-endian; so the
masked speed packs to the same frame (R123). Only the caller's result changes. -/
def Obligations.PackRunFrame : Prop :=
  ∀ (s : State) (dev : Dev) (dir : U8) (speed : U32), ∃ f : Frame,
    exec (.packRun dev dir speed) s = .next (s.given (.frame f)) ∧ f.b0 = 0x50#8 ||| (dir &&& 1#8) ∧
    f.b1.toNat * 65536 + f.b2.toNat * 256 + f.b3.toNat = speed.toNat % 2 ^ 20 ∧
    exec (.packRun dev dir (speed &&& 0xFFFFF#32)) s = exec (.packRun dev dir speed) s

/-- `pack_move` (R101): opcode 0x40 with the direction in bit 0; the low 22 bits of the steps, big-endian. -/
def Obligations.PackMoveFrame : Prop :=
  ∀ (s : State) (dev : Dev) (dir : U8) (steps : U32), ∃ f : Frame,
    exec (.packMove dev dir steps) s = .next (s.given (.frame f)) ∧ f.b0 = 0x40#8 ||| (dir &&& 1#8) ∧
    f.b1.toNat * 65536 + f.b2.toNat * 256 + f.b3.toNat = steps.toNat % 2 ^ 22 ∧
    exec (.packMove dev dir (steps &&& 0x3FFFFF#32)) s = exec (.packMove dev dir steps) s

/-- `pack_goto` and `pack_goto_dir` (R102, R103): the position modulo 2^22, a negative one in two's complement. -/
def Obligations.PackGotoFrames : Prop :=
  ∀ (s : State) (dev : Dev) (dir : U8) (pos : I32), ∃ f g : Frame,
    exec (.packGoto dev pos) s = .next (s.given (.frame f)) ∧ exec (.packGotoDir dev dir pos) s = .next (s.given (.frame g)) ∧
    f.b0 = s.params.codes.opcGoto ∧ g.b0 = s.params.codes.opcGotoDir ||| (dir &&& 1#8) ∧
    (f.b1.toNat : Int) * 65536 + f.b2.toNat * 256 + f.b3.toNat = pos.toInt % 2 ^ 22 ∧
    g.b1 = f.b1 ∧ g.b2 = f.b2 ∧ g.b3 = f.b3

/-- `pack_noarg` (R104) and `pack_get_status_opcodes` (R105). -/
def Obligations.PackArgumentFree : Prop :=
  ∀ (s : State) (dev : Dev) (opcode : U8), let status : Frame := ⟨s.params.codes.opcGetStatus, 0#8, 0#8, 0#8⟩
    exec (.packNoarg dev opcode) s = .next (s.given (.frame ⟨opcode, 0#8, 0#8, 0#8⟩)) ∧
    exec .packGetStatusOpcodes s = .next (s.given (.chainBuf ⟨status, status⟩))

/-- `pack_register_write_1_bytes`, `_2_bytes`, `_3_bytes` (R106, R107, R108): the value masked to 8, 16, 24 bits, big-endian in
bytes 1 to n, and the bytes after it zero. -/
def Obligations.PackRegisterWrites : Prop :=
  ∀ (s : State) (dev : Dev) (opcode : U8) (value : U32), ∃ f g h : Frame,
    exec (.packRegisterWrite1 dev opcode value) s = .next (s.given (.frame f)) ∧
    exec (.packRegisterWrite2 dev opcode value) s = .next (s.given (.frame g)) ∧
    exec (.packRegisterWrite3 dev opcode value) s = .next (s.given (.frame h)) ∧
    (f.b0 = opcode ∧ f.b1.toNat = value.toNat % 2 ^ 8 ∧ f.b2 = 0#8 ∧ f.b3 = 0#8) ∧
    (g.b0 = opcode ∧ g.b1.toNat * 256 + g.b2.toNat = value.toNat % 2 ^ 16 ∧ g.b3 = 0#8) ∧
    (h.b0 = opcode ∧ h.b1.toNat * 65536 + h.b2.toNat * 256 + h.b3.toNat = value.toNat % 2 ^ 24)

/-- `chain_single` (R109) puts the frame in its slot and `NOP_FRAME` in the other; `with_clockout` (R110) appends 8 NOP bytes. -/
def Obligations.ChainBuffers : Prop :=
  ∀ (s : State) (dev : Dev) (f : Frame) (cb : ChainBuf), ∃ (c : ChainBuf) (r : ReadBuf), let nop := s.params.codes.opcNop
    exec (.chainSingle dev f) s = .next (s.given (.chainBuf c)) ∧ exec (.withClockout cb) s = .next (s.given (.readBuf r)) ∧
    (∀ d : Dev, (c.toBytes.drop (4 * d.val)).take 4 = if d = dev then f.toBytes else [nop, 0#8, 0#8, 0#8]) ∧
    c.toBytes.length = 8 ∧ r.toBytes = cb.toBytes ++ List.replicate 8 nop

/-- `parse_status` (R120, R121): a word placed at `4(dev+1)+1` and `+2` is the result, whatever the other bytes hold. -/
def Obligations.ParseStatusRoundTrip : Prop :=
  ∀ (s : State) (reply : ReadBuf) (dev : Dev) (w : U16),
    reply.toBytes[4 * (dev.val + 1) + 1]? = some (w.extractLsb' 8 8) →
    reply.toBytes[4 * (dev.val + 1) + 2]? = some (w.extractLsb' 0 8) →
    exec (.parseStatus reply dev) s = .next (s.given (.u16 w))

/-- `parse_param22` (R122): the low 22 bits of the three bytes from `4(dev+1)+1`, sign-extended from bit 21. -/
def Obligations.ParsePosition : Prop :=
  ∀ (s : State) (reply : ReadBuf) (dev : Dev) (b0 b1 b2 : Byte),
    reply.toBytes[4 * (dev.val + 1) + 1]? = some b0 → reply.toBytes[4 * (dev.val + 1) + 2]? = some b1 →
    reply.toBytes[4 * (dev.val + 1) + 3]? = some b2 →
    ∃ p : I32, exec (.parseParam22 reply dev) s = .next (s.given (.position p)) ∧
      (let raw : Nat := (b0.toNat * 65536 + b1.toNat * 256 + b2.toNat) % 2 ^ 22
       p.toInt = if raw < 2 ^ 21 then (raw : Int) else (raw : Int) - 2 ^ 22)

/-- Every function of FrameCodec, RegisterEncoder and StatusDecoder is total and deterministic, its result depends on its operands
and the opcode parameters of R7 alone, and it changes nothing but the result given to its caller (R124, D39). -/
def Obligations.PureFunctionsIgnoreState : Prop :=
  ∀ i : Instr, i.isPure = true → ∃ v : Codes → Value, ∀ s : State, exec i s = .next (s.given (v s.params.codes))

/-! ### RegisterEncoder -/

/-- `encode_max_speed` (R141) and `encode_acc_dec` (R142), exact over the naturals. -/
def Obligations.SpeedAndAccelerationCodes : Prop :=
  ∀ (s : State) (v : U32), ∃ m a : U16,
    exec (.encodeMaxSpeed v) s = .next (s.given (.u16 m)) ∧ exec (.encodeAccDec v) s = .next (s.given (.u16 a)) ∧
    m.toNat = min 1023 ((1000 * v.toNat + 119) / 238) ∧ a.toNat = min 4095 ((200 * v.toNat + 1455) / 2910)

/-- `encode_stall_threshold_ma` (R143) and `encode_ocd_threshold_ma` (R144), exact over the naturals. -/
def Obligations.ThresholdCodes : Prop :=
  ∀ (s : State) (ma : U32), ∃ t o : U8,
    exec (.encodeStallThresholdMa ma) s = .next (s.given (.u8 t)) ∧ exec (.encodeOcdThresholdMa ma) s = .next (s.given (.u8 o)) ∧
    t.toNat = min 127 (max ((2 * ma.toNat + 61) / 62) 1) ∧
    o.toNat = min 15 (max ((2 * max ma.toNat 375 + 375) / 750) 1)

/-- `encode_microstep_exponent` (R145): 2^e gives e for e in 0..7, and every other divisor gives 4. -/
def Obligations.MicrostepExponents : Prop :=
  ∀ (s : State) (divisor : I32), ∃ e : U8, exec (.encodeMicrostepExponent divisor) s = .next (s.given (.u8 e)) ∧
    (∀ k : Nat, k ≤ 7 → divisor.toInt = 2 ^ k → e.toNat = k) ∧
    ((∀ k : Nat, k ≤ 7 → divisor.toInt ≠ 2 ^ k) → e.toNat = 4)

/-- No tie arises (R146): whatever integer nearest to the quotient an encoder takes, it gives the same code, and the quotient is
never `k + 1/2`; and `rha` is the nearest integer, with halves upward (R140). -/
def Obligations.NoRoundingTies : Prop :=
  let nearest (p q n : Nat) := 2 * p ≤ 2 * q * n + q ∧ 2 * q * n ≤ 2 * p + q
  (∀ v n : Nat, (nearest (1000 * v) 238 n → maxSpeedCode v = min 1023 n) ∧ (nearest (100 * v) 1455 n → accDecCode v = min 4095 n) ∧
    (nearest (v + 15) 31 n → stallCode v = min 127 (max n 1)) ∧ (nearest (max v 375) 375 n → ocdCode v = min 15 (max n 1))) ∧
  (∀ v k : Nat, 2 * (1000 * v) ≠ 238 * (2 * k + 1) ∧ 2 * (100 * v) ≠ 1455 * (2 * k + 1) ∧
    2 * (v + 15) ≠ 31 * (2 * k + 1) ∧ 2 * v ≠ 375 * (2 * k + 1)) ∧
  (∀ p q : Nat, 0 < q → 2 * p < 2 * q * rha p q + q ∧ 2 * q * rha p q ≤ 2 * p + q)

/-- The encoders are monotone and stay in their clamp ranges, and packing their results as register values loses nothing (R148). -/
def Obligations.EncodersMonotoneInRange : Prop :=
  ∀ v w : U32, v.toNat ≤ w.toNat →
    ((encodeMaxSpeed v).toNat ≤ (encodeMaxSpeed w).toNat ∧ (encodeMaxSpeed v).toNat ≤ 1023) ∧
    ((encodeAccDec v).toNat ≤ (encodeAccDec w).toNat ∧ (encodeAccDec v).toNat ≤ 4095) ∧
    ((encodeStallThresholdMa v).toNat ≤ (encodeStallThresholdMa w).toNat ∧
      1 ≤ (encodeStallThresholdMa v).toNat ∧ (encodeStallThresholdMa v).toNat ≤ 127) ∧
    ((encodeOcdThresholdMa v).toNat ≤ (encodeOcdThresholdMa w).toNat ∧
      1 ≤ (encodeOcdThresholdMa v).toNat ∧ (encodeOcdThresholdMa v).toNat ≤ 15) ∧
    (∀ (d : Dev) (o : U8),
      (let f := packRegisterWrite2 d o ((encodeMaxSpeed v).setWidth 32); f.b1 ++ f.b2 = encodeMaxSpeed v) ∧
      (let f := packRegisterWrite2 d o ((encodeAccDec v).setWidth 32); f.b1 ++ f.b2 = encodeAccDec v) ∧
      (packRegisterWrite1 d o ((encodeStallThresholdMa v).setWidth 32)).b1 = encodeStallThresholdMa v ∧
      (packRegisterWrite1 d o ((encodeOcdThresholdMa v).setWidth 32)).b1 = encodeOcdThresholdMa v)

/-- In every legal configuration, every frame of the re-arm write list is a SET_PARAM frame of the opcode map whose value fits its
register's field (R39, R148), and its ten opcodes are distinct: each register is written exactly once (R230). -/
def Obligations.RearmWritesFitTheirFields : Prop :=
  ∀ (c : Codes) (m : MotorModel), c.legal = true →
    (∀ f ∈ paramFrames c m, ∃ i : Instr, decodeFrame c f = .ok i ∧ i.wellFormed = true) ∧
    ((paramFrames c m).map Frame.b0).Nodup ∧
    (paramWrites c m).map (regWriteFrame c 0) = paramFrames c m

/-! ### StatusDecoder -/

/-- `decode_compact` (R251) and `decode_verbose` (R252): the set flags in the order OCD, TH_SD, UVLO, STEP_LOSS_A, STEP_LOSS_B,
BUSY; "NO DATA" for 0, the hex value when no flag is set; and always the hex value first in the verbose form. -/
def Obligations.StatusStrings : Prop :=
  ∀ (s : State) (w : U16),
    let flag (n : Nat) (name : String) : List String := if w.getLsbD n then [name] else []
    let flags := flag 9 "OCD" ++ flag 7 "TH_SD" ++ flag 5 "UVLO" ++ flag 10 "STEP_LOSS_A" ++ flag 11 "STEP_LOSS_B" ++ flag 1 "BUSY"
    exec (.decodeCompact w) s = .next (s.given (.text
      (if w = 0#16 then "NO DATA" else if flags = [] then hexText w else " ".intercalate flags))) ∧
    exec (.decodeVerbose w) s = .next (s.given (.text (flags.foldl (fun out name => out ++ " " ++ name) (hexText w))))

/-- The decoders agree with the fault predicate (R253, R36): a fault is latched exactly when OCD, STEP_LOSS_A or STEP_LOSS_B is
among the set flags. -/
def Obligations.FaultLatchedAgreesWithFlags : Prop :=
  ∀ w : U16, faultLatched w = true ↔ ("OCD" ∈ setFlags w ∨ "STEP_LOSS_A" ∈ setFlags w ∨ "STEP_LOSS_B" ∈ setFlags w)

/-! ### Reads -/

/-- `get_status_all` (R160, R161) and `is_busy` (R162): the errors before bus traffic, whoever holds the lock; else one 16-byte
transceive, whatever the power state, and nothing else changes; the words, or BUSY of the device's word, are returned, or the
transport's error. -/
def Obligations.StatusReads : Prop :=
  ∀ (s : State) (dev : U32), s.slot s.cur = .idle → let read := exchange (statusBuf s.params.codes) (s.answer 0)
    (s.ready = false → exec .getStatusAll s = .next (s.returned .getStatusAll [] (.err .notReady) 0)) ∧
    (s.canCall → s.ready = true → exec .getStatusAll s = .next (s.returned .getStatusAll [read]
      (readResult (fun rx => .words (parseStatus rx 0) (parseStatus rx 1)) (s.answer 0)) 1)) ∧
    s.prologueErrors (.isBusy dev) dev ∧
    (∀ d : Dev, s.canCall → s.ready = true → dev.toNat = d.val → exec (.isBusy dev) s = .next (s.returned (.isBusy dev) [read]
      (readResult (fun rx => .bool ((parseStatus rx d).getLsbD 1)) (s.answer 0)) 1))

/-- `get_abs_pos` (R163): the errors before bus traffic, whoever holds the lock; else one 16-byte transceive of `CB_PARAM`, whatever
the power state; the position is returned, or the transport's error. -/
def Obligations.PositionRead : Prop :=
  ∀ (s : State) (dev : U32), s.slot s.cur = .idle →
    s.prologueErrors (.getAbsPos dev) dev ∧
    (∀ d : Dev, s.canCall → s.ready = true → dev.toNat = d.val →
      exec (.getAbsPos dev) s = .next (s.returned (.getAbsPos dev) [exchange (positionBuf s.params.codes d) (s.answer 0)]
        (readResult (fun rx => .position (parseParam22 rx d)) (s.answer 0)) 1))

/-- `wait_while_busy` (R166) in full: the polls go on while the device is busy, a sleep between two; the first poll that fails
ends it with the transport's error, the first that is not busy with success, and a busy poll at which the deadline has passed
with Timeout. With timeout 0 the deadline has passed at the first query; else `deadlineCount` queries answer false (R269; that the
deadline is drawn as this number is the model's choice, log entry 8). -/
def Obligations.WaitPollsUntilIdleOrDeadline : Prop :=
  ∀ (s : State) (dev timeoutMs pollMs : U32) (d : Dev) (j : Nat), s.canCall → s.ready = true → dev.toNat = d.val →
    j ≤ s.deadlineFor timeoutMs → (∀ i < j, showsBusy d (s.answer i) = true) →
    let op := Instr.waitWhileBusy dev timeoutMs pollMs
    let ends (r : Result) := exec op s = .next ((s.armedFor op).returned op (s.waitEvents pollMs.toNat j) r (j + 1))
    (∀ e, s.answer j = .err e → ends (.err (.transportError e))) ∧
    (∀ rx, s.answer j = .ok rx → showsBusy d (.ok rx) = false → ends (.ok .unit)) ∧
    (j = s.deadlineFor timeoutMs → showsBusy d (s.answer j) = true → ends (.err .timeout))

/-! ### Motion commands and admission -/

/-- `run` (R184): the errors of the index, readiness and power, then over the ceiling `LimitExceeded`, each with no transceive and
whoever holds the lock; a latched fault of the device `FaultLatched` after the status read; else, also when the status read failed
(R183), the RUN frame and the transport's outcome. The ceiling is the active model's maximum speed, or 1000 where the axis has no
model (R182). -/
def Obligations.RunAdmission : Prop :=
  ∀ (s : State) (dev : U32) (dir : U8) (speed : U32), s.slot s.cur = .idle →
    let op := Instr.run dev dir speed
    let status := exchange (statusBuf s.params.codes) (s.answer 0)
    s.prologueErrors op dev ∧ s.powerError op dev ∧
    (∀ d : Dev, dev.toNat = d.val → s.ready = true → s.powerEnabled = true →
      let ceiling := match s.params.catalog[(if d = 0 then s.axis0 else s.axis1).toNat]? with
        | some m => m.maxSpeed.toNat
        | none => 1000
      (ceiling < speed.toNat → exec op s = .next (s.returned op [] (.err .limitExceeded) 0)) ∧
      (s.canCall → speed.toNat ≤ ceiling → showsFault d (s.answer 0) = true →
        exec op s = .next (s.returned op [status] (.err .faultLatched) 1)) ∧
      (s.canCall → speed.toNat ≤ ceiling → showsFault d (s.answer 0) = false →
        exec op s = .next (s.returned op [status, exchange (singleBuf s.params.codes d (packRun d dir speed)) (s.answer 1)]
          (commandResult (s.answer 1)) 2)))

/-- `move` (R185): as `run`, with the global limit MAX_MOVE_STEPS and the MOVE frame. -/
def Obligations.MoveAdmission : Prop :=
  ∀ (s : State) (dev : U32) (dir : U8) (steps : U32), s.slot s.cur = .idle →
    let op := Instr.move dev dir steps
    let status := exchange (statusBuf s.params.codes) (s.answer 0)
    s.prologueErrors op dev ∧ s.powerError op dev ∧
    (∀ d : Dev, dev.toNat = d.val → s.ready = true → s.powerEnabled = true →
      (s.params.maxMoveSteps.toNat < steps.toNat → exec op s = .next (s.returned op [] (.err .limitExceeded) 0)) ∧
      (s.canCall → steps.toNat ≤ s.params.maxMoveSteps.toNat → showsFault d (s.answer 0) = true →
        exec op s = .next (s.returned op [status] (.err .faultLatched) 1)) ∧
      (s.canCall → steps.toNat ≤ s.params.maxMoveSteps.toNat → showsFault d (s.answer 0) = false →
        exec op s = .next (s.returned op [status, exchange (singleBuf s.params.codes d (packMove d dir steps)) (s.answer 1)]
          (commandResult (s.answer 1)) 2)))

/-- `goto`, `goto_dir`, `go_home` (R186, R187, R188): the errors of the index, readiness and power, whoever holds the lock; else one
8-byte transceive, with no limit and no fault check. -/
def Obligations.GotoCommands : Prop :=
  ∀ (s : State) (dev : U32) (dir : U8) (pos : I32), s.slot s.cur = .idle →
    let c := s.params.codes
    let acts (op : Instr) (f : Frame) := s.prologueErrors op dev ∧ s.powerError op dev ∧
      (∀ d : Dev, s.canCall → dev.toNat = d.val → s.ready = true → s.powerEnabled = true →
        exec op s = .next (s.returned op [exchange (singleBuf c d f) (s.answer 0)] (commandResult (s.answer 0)) 1))
    acts (.goto dev pos) (packGoto c 0 pos) ∧ acts (.gotoDir dev dir pos) (packGotoDir c 0 dir pos) ∧
    acts (.goHome dev) ⟨c.opcGoHome, 0#8, 0#8, 0#8⟩

/-- `reset_pos`, `soft_stop`, `hard_stop`, `disable_outputs` (R189 to R192): the errors of the index and readiness, whoever holds the
lock; else one 8-byte transceive, whatever the power state and whatever fault is latched. -/
def Obligations.UngatedCommands : Prop :=
  ∀ (s : State) (dev : U32), s.slot s.cur = .idle →
    let c := s.params.codes
    let acts (op : Instr) (opcode : Byte) := s.prologueErrors op dev ∧
      (∀ d : Dev, s.canCall → dev.toNat = d.val → s.ready = true → exec op s =
        .next (s.returned op [exchange (singleBuf c d ⟨opcode, 0#8, 0#8, 0#8⟩) (s.answer 0)] (commandResult (s.answer 0)) 1))
    acts (.resetPos dev) c.opcResetPos ∧ acts (.softStop dev) c.opcSoftStop ∧ acts (.hardStop dev) c.opcHardStop ∧
    acts (.disableOutputs dev true) c.opcHardHiz ∧ acts (.disableOutputs dev false) c.opcSoftHiz

/-- The admission checks of every operation with a device operand (R180, R193): an out-of-range index gives InvalidArgument before
everything, then an uninitialised chain NotReady, then, for the gated commands, disabled power PowerDisabled; none makes a
transceive, looks at the lock, or changes anything but the result and the log's Return. -/
def Obligations.AdmissionOrder : Prop :=
  ∀ (s : State) (i : Instr) (dev : U32), s.slot s.cur = .idle → devOperand i = some dev →
    s.prologueErrors i dev ∧ (powerGated i = true → s.powerError i dev)

/-- Fail fast (R194, R263): an operation that returns InvalidArgument, NotReady, PowerDisabled, LimitExceeded or NotFound has made
no external event and changed no block state; one that returns FaultLatched has made exactly one transceive, the status read, and
changed no block state. -/
def Obligations.AdmissionFailuresAreClean : Prop :=
  ∀ (s t : State) (i : Instr) (e : ErrorKind), i.isCall = true → exec i s = .next t → t.slot t.cur = .idle →
    (t.caller t.cur).result = some (.err e) →
    (e = .invalidArgument ∨ e = .notReady ∨ e = .powerDisabled ∨ e = .limitExceeded ∨ e = .notFound →
      t.log = s.log ++ [⟨s.cur, .ret i (.err e)⟩] ∧ sameBlock s t) ∧
    (e = .faultLatched → sameBlock s t ∧
      t.log = s.log ++ [⟨s.cur, exchange (statusBuf s.params.codes) (s.answer 0)⟩, ⟨s.cur, .ret i (.err e)⟩])

/-- The admission policy (R195, one caller): whatever instruction is called, a RUN frame goes out only from an admitted `run` of
that device, a MOVE frame only from an admitted `move`, and a GOTO, GOTO_DIR or GO_HOME frame only with power enabled. -/
def Obligations.OnlyAdmittedMotionReachesTheWire : Prop :=
  ∀ (s t : State) (i : Instr), s.params.codes.legal = true → s.slot s.cur = .idle → exec i s = .next t →
    let c := s.params.codes
    ∀ e ∈ t.log.drop s.log.length, ∀ tx, e.tx = some tx → ∀ d : Dev,
      ((frameFor d tx).b0 ∈ [Config.opcRun, Config.opcRun ||| 1#8] →
        ∃ dev dir speed, i = .run dev dir speed ∧ dev.toNat = d.val ∧ s.ready = true ∧ s.powerEnabled = true ∧
          speed.toNat ≤ s.speedCeiling d ∧ showsFault d (s.answer 0) = false) ∧
      ((frameFor d tx).b0 ∈ [Config.opcMove, Config.opcMove ||| 1#8] →
        ∃ dev dir steps, i = .move dev dir steps ∧ dev.toNat = d.val ∧ s.ready = true ∧ s.powerEnabled = true ∧
          steps.toNat ≤ s.params.maxMoveSteps.toNat ∧ showsFault d (s.answer 0) = false) ∧
      ((frameFor d tx).b0 ∈ [c.opcGoto, c.opcGotoDir, c.opcGotoDir ||| 1#8, c.opcGoHome] →
        s.ready = true ∧ s.powerEnabled = true)

/-! ### Initialisation, power, reset, configuration -/

/-- `init` (R220, R221): ready is set exactly when the transport reports ready, no operation but the answer's draw happens, and a
failure changes nothing. It takes no lock. -/
def Obligations.InitSetsReady : Prop :=
  ∀ s : State, s.slot s.cur = .idle →
    (s.transportReady = true →
      exec .init s = .next ({ s.takeTransportReady with ready := true }.returned .init [] (.ok .unit) 0)) ∧
    (s.transportReady = false → exec .init s = .next (s.takeTransportReady.returned .init [] (.err .notReady) 0))

/-- `power_enable` (R222): NotReady without ready or pin, and nothing done; else the pin is driven on, the flag set, and axis 0
and then axis 1 re-armed; the first failing write ends it with the flag still set. The NotReady answers do not look at the lock. -/
def Obligations.PowerEnableRearms : Prop :=
  ∀ s : State, s.slot s.cur = .idle →
    let bufs := s.rearmBufs 0 ++ s.rearmBufs 1
    let on := { s.takePowerPin with powerEnabled := true }
    (s.ready = false → exec .powerEnable s = .next (s.returned .powerEnable [] (.err .notReady) 0)) ∧
    (s.ready = true → s.params.hasPowerPin = false →
      exec .powerEnable s = .next (s.returned .powerEnable [] (.err .notReady) 0)) ∧
    (s.ready = true → s.params.hasPowerPin = true → s.powerPinReady = false →
      exec .powerEnable s = .next (s.takePowerPin.returned .powerEnable [] (.err .notReady) 0)) ∧
    (s.canCall → s.ready = true → s.params.hasPowerPin = true → s.powerPinReady = true →
      ((∀ k < bufs.length, failed (s.answer k) = false) → exec .powerEnable s =
        .next (on.returned .powerEnable (.powerPin true :: s.exchanges 0 bufs) (.ok .unit) bufs.length)) ∧
      (∀ j e, j < bufs.length → (∀ k < j, failed (s.answer k) = false) → s.answer j = .err e → exec .powerEnable s =
        .next (on.returned .powerEnable (.powerPin true :: s.exchanges 0 (bufs.take (j + 1))) (.err (.transportError e)) (j + 1))))

/-- `power_disable` (R224): it needs only the pin, and neither ready nor the lock; the pin is driven off and the flag cleared. -/
def Obligations.PowerDisableNeedsOnlyThePin : Prop :=
  ∀ s : State, s.slot s.cur = .idle →
    (s.params.hasPowerPin = false → exec .powerDisable s = .next (s.returned .powerDisable [] (.err .notReady) 0)) ∧
    (s.params.hasPowerPin = true → s.powerPinReady = false →
      exec .powerDisable s = .next (s.takePowerPin.returned .powerDisable [] (.err .notReady) 0)) ∧
    (s.params.hasPowerPin = true → s.powerPinReady = true →
      exec .powerDisable s = .next ({ s.takePowerPin with powerEnabled := false }.returned .powerDisable
        [.powerPin false] (.ok .unit) 0))

/-- `reset` (R226, R292): with the pin ready the sequence Low, Sleep, High, Sleep, after which the lock is free; ready,
power_enabled and the axes are unchanged; with the pin not ready, NotReady before any event, whoever holds the lock. -/
def Obligations.DeviceResetPulsesThePin : Prop :=
  ∀ s : State, s.slot s.cur = .idle →
    (s.lockOpen s.cur = true → s.resetPinReady = true → exec .reset s = .next ({ s.takeResetPin with lock := none }.returned .reset
      [.resetPin .low, .sleep s.params.tResetLowMs, .resetPin .high, .sleep s.params.tResetHighMs] (.ok .unit) 0)) ∧
    (s.resetPinReady = false → exec .reset s = .next (s.takeResetPin.returned .reset [] (.err .notReady) 0))

/-- `apply_model_params` (R227, R228): the errors of the index and readiness, whoever holds the lock; else the ten writes of the table, each one transceive,
in order and whatever the power state; the first that fails ends it after the writes before it. -/
def Obligations.ApplyWritesTenRegisters : Prop :=
  ∀ (s : State) (dev : U32) (m : MotorModel), s.slot s.cur = .idle →
    let op := Instr.applyModelParams dev m
    let bufs (d : Dev) := paramBufs s.params.codes d m
    s.prologueErrors op dev ∧
    (∀ d : Dev, s.canCall → s.ready = true → dev.toNat = d.val →
      ((∀ k < 10, failed (s.answer k) = false) →
        exec op s = .next (s.returned op (s.exchanges 0 (bufs d)) (.ok .unit) 10)) ∧
      (∀ j e, j < 10 → (∀ k < j, failed (s.answer k) = false) → s.answer j = .err e →
        exec op s = .next (s.returned op (s.exchanges 0 ((bufs d).take (j + 1))) (.err (.transportError e)) (j + 1))))

/-- `set_active_model` (R232): a valid axis and index are selected and persisted, with no frame and no need of ready or of the lock; an
unknown axis or index, one `>= Catalog.count()` (R268), gives NotFound and changes nothing. -/
def Obligations.SetActiveModelSelects : Prop :=
  ∀ (s : State) (axis index : U32), s.slot s.cur = .idle →
    let op := Instr.setActiveModel axis index
    (s.params.legal = true → catalogCount s.params.catalog ≤ index → exec op s = .next (s.returned op [] (.err .notFound) 0)) ∧
    (2 ≤ axis.toNat ∨ s.params.catalog.length ≤ index.toNat → exec op s = .next (s.returned op [] (.err .notFound) 0)) ∧
    (axis.toNat = 0 → index.toNat < s.params.catalog.length →
      exec op s = .next ({ s with axis0 := index }.returned op [.persist 0 index] (.ok .unit) 0)) ∧
    (axis.toNat = 1 → index.toNat < s.params.catalog.length →
      exec op s = .next ({ s with axis1 := index }.returned op [.persist 1 index] (.ok .unit) 0))

/-- `set_active_model_by_name` (R233, R29): the least index whose name is exactly `name` is selected and persisted; an unknown axis or
name gives NotFound. -/
def Obligations.SetActiveModelByNameSelectsLeast : Prop :=
  ∀ (s : State) (axis : U32) (name : String), s.slot s.cur = .idle →
    let op := Instr.setActiveModelByName axis name
    (2 ≤ axis.toNat ∨ (∀ m ∈ s.params.catalog, m.name ≠ name) → exec op s = .next (s.returned op [] (.err .notFound) 0)) ∧
    (∀ (i : U32) (m : MotorModel), s.params.catalog[i.toNat]? = some m → m.name = name →
      (∀ j m', j < i.toNat → s.params.catalog[j]? = some m' → m'.name ≠ name) →
      (axis.toNat = 0 → exec op s = .next ({ s with axis0 := i }.returned op [.persist 0 i] (.ok .unit) 0)) ∧
      (axis.toNat = 1 → exec op s = .next ({ s with axis1 := i }.returned op [.persist 1 i] (.ok .unit) 0)))

/-- `get_active_model` (R234): the axis's index and its record; an unknown axis gives NotFound. With an index that names no entry,
a configuration the spec refuses (I8), the model refuses by name (log entry 16). -/
def Obligations.GetActiveModelReads : Prop :=
  ∀ (s : State) (axis : U32), s.slot s.cur = .idle →
    let op := Instr.getActiveModel axis
    (2 ≤ axis.toNat → exec op s = .next (s.returned op [] (.err .notFound) 0)) ∧
    (∀ d : Dev, axis.toNat = d.val →
      let i := if d = 0 then s.axis0 else s.axis1
      (∀ m, s.params.catalog[i.toNat]? = some m → exec op s = .next (s.returned op [] (.ok (.model i m)) 0)) ∧
      (s.params.catalog.length ≤ i.toNat → exec op s = .refused .noCatalogEntry))

/-! ### The machine as a whole -/

/-- The state after reset, where R43 gives it: Uninitialized, power disabled, both axes at index 0, the lock free, every slot idle,
the log empty; and at that state every operation that transmits, called with a device in range, fails with NotReady (R294). -/
def Obligations.ResetState : Prop :=
  let s := State.reset
  s.ready = false ∧ s.powerEnabled = false ∧ s.axis0 = 0 ∧ s.axis1 = 0 ∧ s.lock = none ∧ (∀ g, s.slot g = .idle) ∧ s.log = [] ∧
  (∀ i : Instr, needsChain i = true → (∀ dev, devOperand i = some dev → dev.toNat < 2) →
    exec i s = .next ((s.armedFor i).returned i [] (.err .notReady) 0))

/-- The invariant holds after reset. The parameters are the reference configuration's (log entry 2), whose catalog is not empty. -/
def Obligations.ResetMeetsInvariant : Prop := State.reset.Inv

/-- Every step keeps the invariant: the parameters stay legal (R8), power enabled implies ready (R24), both axes name catalog
entries (R27), no operation transmits or enables power without having tested ready (R22), a motion frame still to send belongs to
the operation that emits it, with its checks before it or passed (R195), the power pin once driven has the flag's level (R225), and the lock is held only by a caller in the reset
sequence, which alone drives the reset pin (R71, R226). -/
def Obligations.StepKeepsInvariant : Prop :=
  ∀ s t : State, s.Inv → step s = .next t → t.Inv

/-- A step appends to the log, with the tag of the caller that takes it (R31, R70), leaves every other caller's slot, result and
calls as they are, and never changes the parameters or the transport (R25, R290); ready once set stays set (R22). -/
def Obligations.StepChangesOnlyItsCaller : Prop :=
  ∀ s t : State, step s = .next t →
    (∃ es, t.log = s.log ++ es ∧ ∀ e ∈ es, e.caller = s.nextPick.caller) ∧
    (∀ g, g ≠ s.nextPick.caller → t.caller g = s.caller g) ∧ t.params = s.params ∧ t.transport = s.transport ∧
    (s.ready = true → t.ready = true)

/-- A step of an operation's line performs at most one external primitive, and a `Return` event goes with an idle slot (R32,
R33). -/
def Obligations.LineMakesAtMostOnePrimitive : Prop :=
  ∀ s t : State, s.nextPick.whole = false → step s = .next t →
    ∃ es : List Entry, t.log = s.log ++ es ∧ es.length ≤ 1 ∧
      (∀ e ∈ es, e.event.isPrimitive = false → t.slot s.nextPick.caller = .idle)

/-- The block's state is written only by the operations that own it (R21, R22, R23, R26): ready only by `init`, power_enabled only by
`power_enable` (to true) and `power_disable` (to false), an axis only by model selection. -/
def Obligations.StateWrittenOnlyByItsOwners : Prop :=
  ∀ (s t : State) (i : Instr), exec i s = .next t →
    (t.ready ≠ s.ready → i = .init ∧ t.ready = true) ∧
    (t.powerEnabled ≠ s.powerEnabled →
      (i = .powerEnable ∧ t.powerEnabled = true) ∨ (i = .powerDisable ∧ t.powerEnabled = false)) ∧
    (t.axis0 ≠ s.axis0 ∨ t.axis1 ≠ s.axis1 →
      (∃ axis index, i = .setActiveModel axis index) ∨ (∃ axis name, i = .setActiveModelByName axis name))

/-- While a caller holds the lock, no step of any caller makes a transceive: the reset window has no bus traffic (R226, R297); and
no other caller has a step but the evaluation of a pure function, so nothing but the scheduler's draw changes (R70, R71, R275;
that this holds of lines that make no transceive too is the model's choice, log entry 20). -/
def Obligations.NoTransceiveInTheResetWindow : Prop :=
  ∀ s t : State, s.Inv → s.lock ≠ none → step s = .next t →
    (∀ e ∈ t.log.drop s.log.length, e.tx = none) ∧
    (s.lock ≠ some s.nextPick.caller → t = s.scheduled ∨
      ∃ i is, i.isPure = true ∧ (s.caller s.nextPick.caller).calls = i :: is ∧ exec i s.scheduled.popCall = .next t)

/-- The holder of the lock releases it within a bounded number of its own steps (R71): as many as its operation has lines left. -/
def Obligations.LockIsReleased : Prop :=
  ∀ (s : State) (g : Nat) (a : Activation), s.Inv → s.lock = some g → s.slot g = .active a →
    ∃ n ≤ a.rest.length, ∃ t, Host.Core.run Sys2Proof.core n (s.withPicks (List.replicate n ⟨g, false⟩)) = .next t ∧ t.lock = none

/-- A call run whole is the run of its lines one step each with no other caller's step between (log entry 6): whatever state the
whole call leads to, single-line steps of the same caller lead to it too, through the decoder at every transmit line. -/
def Obligations.WholeCallIsItsLines : Prop :=
  ∀ (s t : State) (g : Nat), s.params.codes.legal = true → s.slot g = .idle → step (s.withPicks [⟨g, true⟩]) = .next t →
    ∃ n, Host.Core.run Sys2Proof.core n (s.withPicks (List.replicate n ⟨g, false⟩)) = .next t

/-- Every host operation returns (R278, R166): called with the lock free, it ends with an idle slot, a result, and its Return as the
last event, whatever the transport, the pins and the timer answer. -/
def Obligations.HostCallsReturn : Prop :=
  ∀ (s : State) (i : Instr), s.slot s.cur = .idle → s.lockOpen s.cur = true → i.isCall = true →
    (∀ axis d, i = .getActiveModel axis → axis.toNat = Fin.val (n := 2) d → s.activeModel d ≠ none) →
    ∃ t r, exec i s = .next t ∧ t.slot s.cur = .idle ∧ (t.caller s.cur).result = some r ∧
      t.log.getLast? = some ⟨s.cur, .ret i r⟩

/-- A step runs the fetched instruction: at a transmit line the frame is decoded and its instruction executed, and the operation
goes on to its next line; an idle caller's next call is executed whole, or begun, as the scheduler chooses; a pure function is
evaluated at once, whatever the choice and whoever holds the lock (D39). While another caller holds the lock, a caller with an
operation in progress, or with one to call, has no step (R70, R71, R275; log entry 20), and a caller with nothing to call has
none either (R291): only the scheduler's draw is used up. -/
def Obligations.StepRunsTheFetchedInstruction : Prop :=
  ∀ (s : State) (i : Instr), let g := s.nextPick.caller
    (∀ a f ls, s.slot g = .active a → a.rest = .emit f :: ls → decodeFrame s.params.codes f = .ok i → s.lockOpen g = true →
      step s = onNext (State.advance g) (exec i s.scheduled)) ∧
    (∀ is, s.slot g = .idle → (s.caller g).calls = i :: is → s.lockOpen g = true → s.nextPick.whole = true →
      step s = exec i s.scheduled.popCall) ∧
    (∀ is ls, s.slot g = .idle → (s.caller g).calls = i :: is → s.lockOpen g = true → s.nextPick.whole = false →
      program s.params i = some ls → step s = .next (s.scheduled.popCall.beginCall g i ls)) ∧
    (∀ is, s.slot g = .idle → (s.caller g).calls = i :: is → i.isPure = true → step s = exec i s.scheduled.popCall) ∧
    (∀ a, s.slot g = .active a → s.lockOpen g = false → step s = .next s.scheduled) ∧
    (∀ is, s.slot g = .idle → (s.caller g).calls = i :: is → i.isCall = true → s.lockOpen g = false →
      step s = .next s.scheduled) ∧
    (s.slot g = .idle → (s.caller g).calls = [] → step s = .next s.scheduled)

/-- With two callers a RUN frame may go out after another caller's `power_disable` has returned, with power_enabled false (R72,
R301; `95_test_vectors.md` P7): from a state meeting the invariant, with power enabled and both callers idle, such a step is
reached. -/
def Obligations.CheckToTransmitWindow : Prop :=
  ∃ (s m t : State) (n : Nat), s.Inv ∧ s.powerEnabled = true ∧ (∀ g, s.slot g = .idle) ∧ s.log = [] ∧
    Host.Core.run Sys2Proof.core n s = .next m ∧ m.powerEnabled = false ∧
    (⟨1, .ret .powerDisable (.ok .unit)⟩ : Entry) ∈ m.log ∧ step m = .next t ∧
    ∃ r, t.log = m.log ++ [⟨0, .transceive (singleBuf s.params.codes 0 ⟨0x50#8, 0#8, 0#8, 0x64#8⟩) r⟩]

/-- No bus traffic on an uninitialised chain (R22): a step that makes a transceive starts with ready true. -/
def Obligations.TransceiveOnlyWhenReady : Prop :=
  ∀ s t : State, s.Inv → step s = .next t → (∃ e ∈ t.log.drop s.log.length, e.tx ≠ none) → s.ready = true

/-- The power pin and the flag agree after every completed `power_enable` or `power_disable` that did not return NotReady (R225):
when the call runs whole; and after every step of any caller, however calls of several callers interleave, once the log holds
the Return of such a call (the pin event and the flag write are one step, log entry 21). -/
def Obligations.PowerPinAgreesWithFlag : Prop :=
  (∀ (s t : State) (i : Instr), i = .powerEnable ∨ i = .powerDisable → exec i s = .next t →
    (t.caller t.cur).result ≠ some (.err .notReady) → t.slot t.cur = .idle → powerPinLevel t.log = some t.powerEnabled) ∧
  (∀ s t : State, s.Inv → step s = .next t → powerCompleted t → powerPinLevel t.log = some t.powerEnabled)
end

