-- ==== Sys2Proof/Laws/State.lean ====
section
/-! SUPPORT. One lemma per field per update of the state, and the laws of the callers' list and of the draws. -/

namespace Sys2Proof.Machine

/-! ### Fields after updates -/

@[simp] theorem takeAnswers_ready (n : Nat) (s : State) : (s.takeAnswers n).ready = s.ready := (rfl)
@[simp] theorem takeAnswers_powerEnabled (n : Nat) (s : State) : (s.takeAnswers n).powerEnabled = s.powerEnabled := (rfl)
@[simp] theorem takeAnswers_transport (n : Nat) (s : State) : (s.takeAnswers n).transport = s.transport := (rfl)
@[simp] theorem takeAnswers_axis0 (n : Nat) (s : State) : (s.takeAnswers n).axis0 = s.axis0 := (rfl)
@[simp] theorem takeAnswers_axis1 (n : Nat) (s : State) : (s.takeAnswers n).axis1 = s.axis1 := (rfl)
@[simp] theorem takeAnswers_lock (n : Nat) (s : State) : (s.takeAnswers n).lock = s.lock := (rfl)
@[simp] theorem takeAnswers_callers (n : Nat) (s : State) : (s.takeAnswers n).callers = s.callers := (rfl)
@[simp] theorem takeAnswers_log (n : Nat) (s : State) : (s.takeAnswers n).log = s.log := (rfl)
@[simp] theorem takeAnswers_params (n : Nat) (s : State) : (s.takeAnswers n).params = s.params := (rfl)
@[simp] theorem takeAnswers_cur (n : Nat) (s : State) : (s.takeAnswers n).cur = s.cur := (rfl)

@[simp] theorem takeTransportReady_ready (s : State) : (s.takeTransportReady).ready = s.ready := (rfl)
@[simp] theorem takeTransportReady_powerEnabled (s : State) : (s.takeTransportReady).powerEnabled = s.powerEnabled := (rfl)
@[simp] theorem takeTransportReady_transport (s : State) : (s.takeTransportReady).transport = s.transport := (rfl)
@[simp] theorem takeTransportReady_axis0 (s : State) : (s.takeTransportReady).axis0 = s.axis0 := (rfl)
@[simp] theorem takeTransportReady_axis1 (s : State) : (s.takeTransportReady).axis1 = s.axis1 := (rfl)
@[simp] theorem takeTransportReady_lock (s : State) : (s.takeTransportReady).lock = s.lock := (rfl)
@[simp] theorem takeTransportReady_callers (s : State) : (s.takeTransportReady).callers = s.callers := (rfl)
@[simp] theorem takeTransportReady_log (s : State) : (s.takeTransportReady).log = s.log := (rfl)
@[simp] theorem takeTransportReady_params (s : State) : (s.takeTransportReady).params = s.params := (rfl)
@[simp] theorem takeTransportReady_cur (s : State) : (s.takeTransportReady).cur = s.cur := (rfl)

@[simp] theorem takeResetPin_ready (s : State) : (s.takeResetPin).ready = s.ready := (rfl)
@[simp] theorem takeResetPin_powerEnabled (s : State) : (s.takeResetPin).powerEnabled = s.powerEnabled := (rfl)
@[simp] theorem takeResetPin_transport (s : State) : (s.takeResetPin).transport = s.transport := (rfl)
@[simp] theorem takeResetPin_axis0 (s : State) : (s.takeResetPin).axis0 = s.axis0 := (rfl)
@[simp] theorem takeResetPin_axis1 (s : State) : (s.takeResetPin).axis1 = s.axis1 := (rfl)
@[simp] theorem takeResetPin_lock (s : State) : (s.takeResetPin).lock = s.lock := (rfl)
@[simp] theorem takeResetPin_callers (s : State) : (s.takeResetPin).callers = s.callers := (rfl)
@[simp] theorem takeResetPin_log (s : State) : (s.takeResetPin).log = s.log := (rfl)
@[simp] theorem takeResetPin_params (s : State) : (s.takeResetPin).params = s.params := (rfl)
@[simp] theorem takeResetPin_cur (s : State) : (s.takeResetPin).cur = s.cur := (rfl)

@[simp] theorem takePowerPin_ready (s : State) : (s.takePowerPin).ready = s.ready := (rfl)
@[simp] theorem takePowerPin_powerEnabled (s : State) : (s.takePowerPin).powerEnabled = s.powerEnabled := (rfl)
@[simp] theorem takePowerPin_transport (s : State) : (s.takePowerPin).transport = s.transport := (rfl)
@[simp] theorem takePowerPin_axis0 (s : State) : (s.takePowerPin).axis0 = s.axis0 := (rfl)
@[simp] theorem takePowerPin_axis1 (s : State) : (s.takePowerPin).axis1 = s.axis1 := (rfl)
@[simp] theorem takePowerPin_lock (s : State) : (s.takePowerPin).lock = s.lock := (rfl)
@[simp] theorem takePowerPin_callers (s : State) : (s.takePowerPin).callers = s.callers := (rfl)
@[simp] theorem takePowerPin_log (s : State) : (s.takePowerPin).log = s.log := (rfl)
@[simp] theorem takePowerPin_params (s : State) : (s.takePowerPin).params = s.params := (rfl)
@[simp] theorem takePowerPin_cur (s : State) : (s.takePowerPin).cur = s.cur := (rfl)

@[simp] theorem takeDeadline_ready (s : State) : (s.takeDeadline).ready = s.ready := (rfl)
@[simp] theorem takeDeadline_powerEnabled (s : State) : (s.takeDeadline).powerEnabled = s.powerEnabled := (rfl)
@[simp] theorem takeDeadline_transport (s : State) : (s.takeDeadline).transport = s.transport := (rfl)
@[simp] theorem takeDeadline_axis0 (s : State) : (s.takeDeadline).axis0 = s.axis0 := (rfl)
@[simp] theorem takeDeadline_axis1 (s : State) : (s.takeDeadline).axis1 = s.axis1 := (rfl)
@[simp] theorem takeDeadline_lock (s : State) : (s.takeDeadline).lock = s.lock := (rfl)
@[simp] theorem takeDeadline_callers (s : State) : (s.takeDeadline).callers = s.callers := (rfl)
@[simp] theorem takeDeadline_log (s : State) : (s.takeDeadline).log = s.log := (rfl)
@[simp] theorem takeDeadline_params (s : State) : (s.takeDeadline).params = s.params := (rfl)
@[simp] theorem takeDeadline_cur (s : State) : (s.takeDeadline).cur = s.cur := (rfl)

@[simp] theorem takePick_ready (s : State) : (s.takePick).ready = s.ready := (rfl)
@[simp] theorem takePick_powerEnabled (s : State) : (s.takePick).powerEnabled = s.powerEnabled := (rfl)
@[simp] theorem takePick_transport (s : State) : (s.takePick).transport = s.transport := (rfl)
@[simp] theorem takePick_axis0 (s : State) : (s.takePick).axis0 = s.axis0 := (rfl)
@[simp] theorem takePick_axis1 (s : State) : (s.takePick).axis1 = s.axis1 := (rfl)
@[simp] theorem takePick_lock (s : State) : (s.takePick).lock = s.lock := (rfl)
@[simp] theorem takePick_callers (s : State) : (s.takePick).callers = s.callers := (rfl)
@[simp] theorem takePick_log (s : State) : (s.takePick).log = s.log := (rfl)
@[simp] theorem takePick_params (s : State) : (s.takePick).params = s.params := (rfl)
@[simp] theorem takePick_cur (s : State) : (s.takePick).cur = s.cur := (rfl)

@[simp] theorem setCaller_ready (g : Nat) (c : Caller) (s : State) : (s.setCaller g c).ready = s.ready := rfl
@[simp] theorem setCaller_powerEnabled (g : Nat) (c : Caller) (s : State) : (s.setCaller g c).powerEnabled = s.powerEnabled := rfl
@[simp] theorem setCaller_transport (g : Nat) (c : Caller) (s : State) : (s.setCaller g c).transport = s.transport := rfl
@[simp] theorem setCaller_axis0 (g : Nat) (c : Caller) (s : State) : (s.setCaller g c).axis0 = s.axis0 := rfl
@[simp] theorem setCaller_axis1 (g : Nat) (c : Caller) (s : State) : (s.setCaller g c).axis1 = s.axis1 := rfl
@[simp] theorem setCaller_lock (g : Nat) (c : Caller) (s : State) : (s.setCaller g c).lock = s.lock := rfl
@[simp] theorem setCaller_log (g : Nat) (c : Caller) (s : State) : (s.setCaller g c).log = s.log := rfl
@[simp] theorem setCaller_params (g : Nat) (c : Caller) (s : State) : (s.setCaller g c).params = s.params := rfl
@[simp] theorem setCaller_env (g : Nat) (c : Caller) (s : State) : (s.setCaller g c).env = s.env := rfl
@[simp] theorem setCaller_cur (g : Nat) (c : Caller) (s : State) : (s.setCaller g c).cur = s.cur := rfl

@[simp] theorem setSlot_ready (g : Nat) (x : Slot) (s : State) : (s.setSlot g x).ready = s.ready := rfl
@[simp] theorem setSlot_powerEnabled (g : Nat) (x : Slot) (s : State) : (s.setSlot g x).powerEnabled = s.powerEnabled := rfl
@[simp] theorem setSlot_transport (g : Nat) (x : Slot) (s : State) : (s.setSlot g x).transport = s.transport := rfl
@[simp] theorem setSlot_axis0 (g : Nat) (x : Slot) (s : State) : (s.setSlot g x).axis0 = s.axis0 := rfl
@[simp] theorem setSlot_axis1 (g : Nat) (x : Slot) (s : State) : (s.setSlot g x).axis1 = s.axis1 := rfl
@[simp] theorem setSlot_lock (g : Nat) (x : Slot) (s : State) : (s.setSlot g x).lock = s.lock := rfl
@[simp] theorem setSlot_log (g : Nat) (x : Slot) (s : State) : (s.setSlot g x).log = s.log := rfl
@[simp] theorem setSlot_params (g : Nat) (x : Slot) (s : State) : (s.setSlot g x).params = s.params := rfl
@[simp] theorem setSlot_env (g : Nat) (x : Slot) (s : State) : (s.setSlot g x).env = s.env := rfl
@[simp] theorem setSlot_cur (g : Nat) (x : Slot) (s : State) : (s.setSlot g x).cur = s.cur := rfl

@[simp] theorem advance_ready (g : Nat) (s : State) : (s.advance g).ready = s.ready := by unfold State.advance; split <;> rfl
@[simp] theorem advance_powerEnabled (g : Nat) (s : State) : (s.advance g).powerEnabled = s.powerEnabled := by unfold State.advance; split <;> rfl
@[simp] theorem advance_transport (g : Nat) (s : State) : (s.advance g).transport = s.transport := by unfold State.advance; split <;> rfl
@[simp] theorem advance_axis0 (g : Nat) (s : State) : (s.advance g).axis0 = s.axis0 := by unfold State.advance; split <;> rfl
@[simp] theorem advance_axis1 (g : Nat) (s : State) : (s.advance g).axis1 = s.axis1 := by unfold State.advance; split <;> rfl
@[simp] theorem advance_lock (g : Nat) (s : State) : (s.advance g).lock = s.lock := by unfold State.advance; split <;> rfl
@[simp] theorem advance_log (g : Nat) (s : State) : (s.advance g).log = s.log := by unfold State.advance; split <;> rfl
@[simp] theorem advance_params (g : Nat) (s : State) : (s.advance g).params = s.params := by unfold State.advance; split <;> rfl
@[simp] theorem advance_env (g : Nat) (s : State) : (s.advance g).env = s.env := by unfold State.advance; split <;> rfl
@[simp] theorem advance_cur (g : Nat) (s : State) : (s.advance g).cur = s.cur := by unfold State.advance; split <;> rfl

@[simp] theorem goInto_ready (g : Nat) (a : Activation) (ls : List Line) (s : State) : (s.goInto g a ls).ready = s.ready := rfl
@[simp] theorem goInto_powerEnabled (g : Nat) (a : Activation) (ls : List Line) (s : State) : (s.goInto g a ls).powerEnabled = s.powerEnabled := rfl
@[simp] theorem goInto_transport (g : Nat) (a : Activation) (ls : List Line) (s : State) : (s.goInto g a ls).transport = s.transport := rfl
@[simp] theorem goInto_axis0 (g : Nat) (a : Activation) (ls : List Line) (s : State) : (s.goInto g a ls).axis0 = s.axis0 := rfl
@[simp] theorem goInto_axis1 (g : Nat) (a : Activation) (ls : List Line) (s : State) : (s.goInto g a ls).axis1 = s.axis1 := rfl
@[simp] theorem goInto_lock (g : Nat) (a : Activation) (ls : List Line) (s : State) : (s.goInto g a ls).lock = s.lock := rfl
@[simp] theorem goInto_log (g : Nat) (a : Activation) (ls : List Line) (s : State) : (s.goInto g a ls).log = s.log := rfl
@[simp] theorem goInto_params (g : Nat) (a : Activation) (ls : List Line) (s : State) : (s.goInto g a ls).params = s.params := rfl
@[simp] theorem goInto_env (g : Nat) (a : Activation) (ls : List Line) (s : State) : (s.goInto g a ls).env = s.env := rfl
@[simp] theorem goInto_cur (g : Nat) (a : Activation) (ls : List Line) (s : State) : (s.goInto g a ls).cur = s.cur := rfl

@[simp] theorem advanceOn_ready (g : Nat) (a : Activation) (d : Dev) (s : State) : (s.advanceOn g a d).ready = s.ready := rfl
@[simp] theorem advanceOn_powerEnabled (g : Nat) (a : Activation) (d : Dev) (s : State) : (s.advanceOn g a d).powerEnabled = s.powerEnabled := rfl
@[simp] theorem advanceOn_transport (g : Nat) (a : Activation) (d : Dev) (s : State) : (s.advanceOn g a d).transport = s.transport := rfl
@[simp] theorem advanceOn_axis0 (g : Nat) (a : Activation) (d : Dev) (s : State) : (s.advanceOn g a d).axis0 = s.axis0 := rfl
@[simp] theorem advanceOn_axis1 (g : Nat) (a : Activation) (d : Dev) (s : State) : (s.advanceOn g a d).axis1 = s.axis1 := rfl
@[simp] theorem advanceOn_lock (g : Nat) (a : Activation) (d : Dev) (s : State) : (s.advanceOn g a d).lock = s.lock := rfl
@[simp] theorem advanceOn_log (g : Nat) (a : Activation) (d : Dev) (s : State) : (s.advanceOn g a d).log = s.log := rfl
@[simp] theorem advanceOn_params (g : Nat) (a : Activation) (d : Dev) (s : State) : (s.advanceOn g a d).params = s.params := rfl
@[simp] theorem advanceOn_env (g : Nat) (a : Activation) (d : Dev) (s : State) : (s.advanceOn g a d).env = s.env := rfl
@[simp] theorem advanceOn_cur (g : Nat) (a : Activation) (d : Dev) (s : State) : (s.advanceOn g a d).cur = s.cur := rfl

@[simp] theorem record_ready (g : Nat) (e : Event) (s : State) : (s.record g e).ready = s.ready := rfl
@[simp] theorem record_powerEnabled (g : Nat) (e : Event) (s : State) : (s.record g e).powerEnabled = s.powerEnabled := rfl
@[simp] theorem record_transport (g : Nat) (e : Event) (s : State) : (s.record g e).transport = s.transport := rfl
@[simp] theorem record_axis0 (g : Nat) (e : Event) (s : State) : (s.record g e).axis0 = s.axis0 := rfl
@[simp] theorem record_axis1 (g : Nat) (e : Event) (s : State) : (s.record g e).axis1 = s.axis1 := rfl
@[simp] theorem record_lock (g : Nat) (e : Event) (s : State) : (s.record g e).lock = s.lock := rfl
@[simp] theorem record_callers (g : Nat) (e : Event) (s : State) : (s.record g e).callers = s.callers := rfl
@[simp] theorem record_params (g : Nat) (e : Event) (s : State) : (s.record g e).params = s.params := rfl
@[simp] theorem record_env (g : Nat) (e : Event) (s : State) : (s.record g e).env = s.env := rfl
@[simp] theorem record_cur (g : Nat) (e : Event) (s : State) : (s.record g e).cur = s.cur := rfl

@[simp] theorem setAxisModel_ready (a : Dev) (i : U32) (s : State) : (s.setAxisModel a i).ready = s.ready := by unfold State.setAxisModel; split <;> rfl
@[simp] theorem setAxisModel_powerEnabled (a : Dev) (i : U32) (s : State) : (s.setAxisModel a i).powerEnabled = s.powerEnabled := by unfold State.setAxisModel; split <;> rfl
@[simp] theorem setAxisModel_transport (a : Dev) (i : U32) (s : State) : (s.setAxisModel a i).transport = s.transport := by unfold State.setAxisModel; split <;> rfl
@[simp] theorem setAxisModel_lock (a : Dev) (i : U32) (s : State) : (s.setAxisModel a i).lock = s.lock := by unfold State.setAxisModel; split <;> rfl
@[simp] theorem setAxisModel_callers (a : Dev) (i : U32) (s : State) : (s.setAxisModel a i).callers = s.callers := by unfold State.setAxisModel; split <;> rfl
@[simp] theorem setAxisModel_log (a : Dev) (i : U32) (s : State) : (s.setAxisModel a i).log = s.log := by unfold State.setAxisModel; split <;> rfl
@[simp] theorem setAxisModel_params (a : Dev) (i : U32) (s : State) : (s.setAxisModel a i).params = s.params := by unfold State.setAxisModel; split <;> rfl
@[simp] theorem setAxisModel_env (a : Dev) (i : U32) (s : State) : (s.setAxisModel a i).env = s.env := by unfold State.setAxisModel; split <;> rfl
@[simp] theorem setAxisModel_cur (a : Dev) (i : U32) (s : State) : (s.setAxisModel a i).cur = s.cur := by unfold State.setAxisModel; split <;> rfl

@[simp] theorem finish_ready (g : Nat) (op : Instr) (r : Result) (s : State) : (s.finish g op r).ready = s.ready := rfl
@[simp] theorem finish_powerEnabled (g : Nat) (op : Instr) (r : Result) (s : State) : (s.finish g op r).powerEnabled = s.powerEnabled := rfl
@[simp] theorem finish_transport (g : Nat) (op : Instr) (r : Result) (s : State) : (s.finish g op r).transport = s.transport := rfl
@[simp] theorem finish_axis0 (g : Nat) (op : Instr) (r : Result) (s : State) : (s.finish g op r).axis0 = s.axis0 := rfl
@[simp] theorem finish_axis1 (g : Nat) (op : Instr) (r : Result) (s : State) : (s.finish g op r).axis1 = s.axis1 := rfl
@[simp] theorem finish_lock (g : Nat) (op : Instr) (r : Result) (s : State) : (s.finish g op r).lock = s.lock := rfl
@[simp] theorem finish_params (g : Nat) (op : Instr) (r : Result) (s : State) : (s.finish g op r).params = s.params := rfl
@[simp] theorem finish_env (g : Nat) (op : Instr) (r : Result) (s : State) : (s.finish g op r).env = s.env := rfl
@[simp] theorem finish_cur (g : Nat) (op : Instr) (r : Result) (s : State) : (s.finish g op r).cur = s.cur := rfl

@[simp] theorem raise_ready (g : Nat) (a : Activation) (e : ErrorKind) (s : State) : (s.raise g a e).ready = s.ready := rfl
@[simp] theorem raise_powerEnabled (g : Nat) (a : Activation) (e : ErrorKind) (s : State) : (s.raise g a e).powerEnabled = s.powerEnabled := rfl
@[simp] theorem raise_transport (g : Nat) (a : Activation) (e : ErrorKind) (s : State) : (s.raise g a e).transport = s.transport := rfl
@[simp] theorem raise_axis0 (g : Nat) (a : Activation) (e : ErrorKind) (s : State) : (s.raise g a e).axis0 = s.axis0 := rfl
@[simp] theorem raise_axis1 (g : Nat) (a : Activation) (e : ErrorKind) (s : State) : (s.raise g a e).axis1 = s.axis1 := rfl
@[simp] theorem raise_lock (g : Nat) (a : Activation) (e : ErrorKind) (s : State) : (s.raise g a e).lock = s.lock := rfl
@[simp] theorem raise_params (g : Nat) (a : Activation) (e : ErrorKind) (s : State) : (s.raise g a e).params = s.params := rfl
@[simp] theorem raise_env (g : Nat) (a : Activation) (e : ErrorKind) (s : State) : (s.raise g a e).env = s.env := rfl
@[simp] theorem raise_cur (g : Nat) (a : Activation) (e : ErrorKind) (s : State) : (s.raise g a e).cur = s.cur := rfl

@[simp] theorem giveBack_ready (g : Nat) (a : Activation) (v : Value) (s : State) : (s.giveBack g a v).ready = s.ready := rfl
@[simp] theorem giveBack_powerEnabled (g : Nat) (a : Activation) (v : Value) (s : State) : (s.giveBack g a v).powerEnabled = s.powerEnabled := rfl
@[simp] theorem giveBack_transport (g : Nat) (a : Activation) (v : Value) (s : State) : (s.giveBack g a v).transport = s.transport := rfl
@[simp] theorem giveBack_axis0 (g : Nat) (a : Activation) (v : Value) (s : State) : (s.giveBack g a v).axis0 = s.axis0 := rfl
@[simp] theorem giveBack_axis1 (g : Nat) (a : Activation) (v : Value) (s : State) : (s.giveBack g a v).axis1 = s.axis1 := rfl
@[simp] theorem giveBack_lock (g : Nat) (a : Activation) (v : Value) (s : State) : (s.giveBack g a v).lock = s.lock := rfl
@[simp] theorem giveBack_params (g : Nat) (a : Activation) (v : Value) (s : State) : (s.giveBack g a v).params = s.params := rfl
@[simp] theorem giveBack_env (g : Nat) (a : Activation) (v : Value) (s : State) : (s.giveBack g a v).env = s.env := rfl
@[simp] theorem giveBack_cur (g : Nat) (a : Activation) (v : Value) (s : State) : (s.giveBack g a v).cur = s.cur := rfl

@[simp] theorem deliver_ready (v : Value) (s : State) : (s.deliver v).ready = s.ready := rfl
@[simp] theorem deliver_powerEnabled (v : Value) (s : State) : (s.deliver v).powerEnabled = s.powerEnabled := rfl
@[simp] theorem deliver_transport (v : Value) (s : State) : (s.deliver v).transport = s.transport := rfl
@[simp] theorem deliver_axis0 (v : Value) (s : State) : (s.deliver v).axis0 = s.axis0 := rfl
@[simp] theorem deliver_axis1 (v : Value) (s : State) : (s.deliver v).axis1 = s.axis1 := rfl
@[simp] theorem deliver_lock (v : Value) (s : State) : (s.deliver v).lock = s.lock := rfl
@[simp] theorem deliver_log (v : Value) (s : State) : (s.deliver v).log = s.log := rfl
@[simp] theorem deliver_params (v : Value) (s : State) : (s.deliver v).params = s.params := rfl
@[simp] theorem deliver_env (v : Value) (s : State) : (s.deliver v).env = s.env := rfl
@[simp] theorem deliver_cur (v : Value) (s : State) : (s.deliver v).cur = s.cur := rfl

@[simp] theorem transmit_ready (g : Nat) (a : Activation) (f : Frame) (s : State) : (s.transmit g a f).ready = s.ready := rfl
@[simp] theorem transmit_powerEnabled (g : Nat) (a : Activation) (f : Frame) (s : State) : (s.transmit g a f).powerEnabled = s.powerEnabled := rfl
@[simp] theorem transmit_transport (g : Nat) (a : Activation) (f : Frame) (s : State) : (s.transmit g a f).transport = s.transport := rfl
@[simp] theorem transmit_axis0 (g : Nat) (a : Activation) (f : Frame) (s : State) : (s.transmit g a f).axis0 = s.axis0 := rfl
@[simp] theorem transmit_axis1 (g : Nat) (a : Activation) (f : Frame) (s : State) : (s.transmit g a f).axis1 = s.axis1 := rfl
@[simp] theorem transmit_lock (g : Nat) (a : Activation) (f : Frame) (s : State) : (s.transmit g a f).lock = s.lock := rfl
@[simp] theorem transmit_params (g : Nat) (a : Activation) (f : Frame) (s : State) : (s.transmit g a f).params = s.params := rfl
@[simp] theorem transmit_cur (g : Nat) (a : Activation) (f : Frame) (s : State) : (s.transmit g a f).cur = s.cur := rfl

@[simp] theorem beginCall_ready (g : Nat) (op : Instr) (ls : List Line) (s : State) : (s.beginCall g op ls).ready = s.ready := rfl
@[simp] theorem beginCall_powerEnabled (g : Nat) (op : Instr) (ls : List Line) (s : State) : (s.beginCall g op ls).powerEnabled = s.powerEnabled := rfl
@[simp] theorem beginCall_transport (g : Nat) (op : Instr) (ls : List Line) (s : State) : (s.beginCall g op ls).transport = s.transport := rfl
@[simp] theorem beginCall_axis0 (g : Nat) (op : Instr) (ls : List Line) (s : State) : (s.beginCall g op ls).axis0 = s.axis0 := rfl
@[simp] theorem beginCall_axis1 (g : Nat) (op : Instr) (ls : List Line) (s : State) : (s.beginCall g op ls).axis1 = s.axis1 := rfl
@[simp] theorem beginCall_lock (g : Nat) (op : Instr) (ls : List Line) (s : State) : (s.beginCall g op ls).lock = s.lock := rfl
@[simp] theorem beginCall_log (g : Nat) (op : Instr) (ls : List Line) (s : State) : (s.beginCall g op ls).log = s.log := rfl
@[simp] theorem beginCall_params (g : Nat) (op : Instr) (ls : List Line) (s : State) : (s.beginCall g op ls).params = s.params := rfl
@[simp] theorem beginCall_env (g : Nat) (op : Instr) (ls : List Line) (s : State) : (s.beginCall g op ls).env = s.env := rfl
@[simp] theorem beginCall_cur (g : Nat) (op : Instr) (ls : List Line) (s : State) : (s.beginCall g op ls).cur = s.cur := rfl

@[simp] theorem record_log (g : Nat) (e : Event) (s : State) : (s.record g e).log = s.log ++ [⟨g, e⟩] := rfl
@[simp] theorem finish_log (g : Nat) (op : Instr) (r : Result) (s : State) :
    (s.finish g op r).log = s.log ++ [⟨g, .ret op r⟩] := rfl
@[simp] theorem raise_log (g : Nat) (a : Activation) (e : ErrorKind) (s : State) :
    (s.raise g a e).log = s.log ++ [⟨g, .ret a.op (.err e)⟩] := rfl
@[simp] theorem giveBack_log (g : Nat) (a : Activation) (v : Value) (s : State) :
    (s.giveBack g a v).log = s.log ++ [⟨g, .ret a.op (.ok v)⟩] := rfl
@[simp] theorem transmit_log (g : Nat) (a : Activation) (f : Frame) (s : State) :
    (s.transmit g a f).log = s.log ++ [⟨g, .transceive (txOf s.params.codes a.dev f)
      (replyTo (txOf s.params.codes a.dev f) (s.answer 0))⟩] := rfl
@[simp] theorem transmit_env (g : Nat) (a : Activation) (f : Frame) (s : State) :
    (s.transmit g a f).env = (s.takeAnswers 1).env := rfl

/-! ### Callers -/

@[simp] theorem callerAt_setCallerAt (cs : List Caller) (g h : Nat) (c : Caller) :
    callerAt (setCallerAt cs g c) h = if h = g then c else callerAt cs h := by
  induction cs generalizing g h with
  | nil =>
    induction g generalizing h with
    | zero => cases h <;> simp [setCallerAt, callerAt]
    | succ g ih => cases h <;> simp [setCallerAt, callerAt, ih]
  | cons d cs ih => cases g <;> cases h <;> simp [setCallerAt, callerAt, ih]

@[simp] theorem setCallerAt_setCallerAt (cs : List Caller) (g : Nat) (c d : Caller) :
    setCallerAt (setCallerAt cs g c) g d = setCallerAt cs g d := by
  induction cs generalizing g with
  | nil => induction g with
    | zero => rfl
    | succ g ih => simp [setCallerAt, ih]
  | cons e cs ih => cases g <;> simp [setCallerAt, ih]

@[simp] theorem caller_setCaller (g h : Nat) (c : Caller) (s : State) :
    (s.setCaller g c).caller h = if h = g then c else s.caller h := callerAt_setCallerAt ..

@[simp] theorem setCaller_callers (g : Nat) (c : Caller) (s : State) :
    (s.setCaller g c).callers = setCallerAt s.callers g c := rfl

theorem caller_congr {s t : State} (h : s.callers = t.callers) (g : Nat) : s.caller g = t.caller g := by
  unfold State.caller; rw [h]

theorem slot_congr {s t : State} (h : s.callers = t.callers) (g : Nat) : s.slot g = t.slot g := by
  unfold State.slot; rw [caller_congr h]

@[simp] theorem slot_setCaller (g h : Nat) (c : Caller) (s : State) :
    (s.setCaller g c).slot h = if h = g then c.slot else s.slot h := by
  unfold State.slot; rw [caller_setCaller]; split <;> rfl

@[simp] theorem slot_setSlot (g h : Nat) (x : Slot) (s : State) :
    (s.setSlot g x).slot h = if h = g then x else s.slot h := slot_setCaller ..

@[simp] theorem caller_setSlot (g h : Nat) (x : Slot) (s : State) :
    (s.setSlot g x).caller h = if h = g then { s.caller g with slot := x } else s.caller h := caller_setCaller ..

@[simp] theorem setSlot_callers (g : Nat) (x : Slot) (s : State) :
    (s.setSlot g x).callers = setCallerAt s.callers g { s.caller g with slot := x } := rfl
@[simp] theorem caller_record (h : Nat) (g : Nat) (e : Event) (s : State) : (s.record g e).caller h = s.caller h := caller_congr (by simp) h
@[simp] theorem slot_record (h : Nat) (g : Nat) (e : Event) (s : State) : (s.record g e).slot h = s.slot h := slot_congr (by simp) h
@[simp] theorem caller_takeAnswers (h : Nat) (n : Nat) (s : State) : (s.takeAnswers n).caller h = s.caller h := caller_congr (by simp) h
@[simp] theorem slot_takeAnswers (h : Nat) (n : Nat) (s : State) : (s.takeAnswers n).slot h = s.slot h := slot_congr (by simp) h
@[simp] theorem caller_takeTransportReady (h : Nat) (s : State) : (s.takeTransportReady).caller h = s.caller h := caller_congr (by simp) h
@[simp] theorem slot_takeTransportReady (h : Nat) (s : State) : (s.takeTransportReady).slot h = s.slot h := slot_congr (by simp) h
@[simp] theorem caller_takeResetPin (h : Nat) (s : State) : (s.takeResetPin).caller h = s.caller h := caller_congr (by simp) h
@[simp] theorem slot_takeResetPin (h : Nat) (s : State) : (s.takeResetPin).slot h = s.slot h := slot_congr (by simp) h
@[simp] theorem caller_takePowerPin (h : Nat) (s : State) : (s.takePowerPin).caller h = s.caller h := caller_congr (by simp) h
@[simp] theorem slot_takePowerPin (h : Nat) (s : State) : (s.takePowerPin).slot h = s.slot h := slot_congr (by simp) h
@[simp] theorem caller_takeDeadline (h : Nat) (s : State) : (s.takeDeadline).caller h = s.caller h := caller_congr (by simp) h
@[simp] theorem slot_takeDeadline (h : Nat) (s : State) : (s.takeDeadline).slot h = s.slot h := slot_congr (by simp) h
@[simp] theorem caller_takePick (h : Nat) (s : State) : (s.takePick).caller h = s.caller h := caller_congr (by simp) h
@[simp] theorem slot_takePick (h : Nat) (s : State) : (s.takePick).slot h = s.slot h := slot_congr (by simp) h
@[simp] theorem caller_setAxisModel (h : Nat) (a : Dev) (i : U32) (s : State) : (s.setAxisModel a i).caller h = s.caller h := caller_congr (by simp) h
@[simp] theorem slot_setAxisModel (h : Nat) (a : Dev) (i : U32) (s : State) : (s.setAxisModel a i).slot h = s.slot h := slot_congr (by simp) h

/-- A step of one caller leaves every other caller's slot and interface as they were. -/
@[simp] theorem caller_advance_other {g h : Nat} (hg : h ≠ g) (s : State) : (s.advance g).caller h = s.caller h := by
  unfold State.advance; split <;> simp [hg]
@[simp] theorem slot_finish (g h : Nat) (op : Instr) (r : Result) (s : State) :
    (s.finish g op r).slot h = if h = g then .idle else s.slot h := by
  unfold State.finish; simp
@[simp] theorem caller_finish (g h : Nat) (op : Instr) (r : Result) (s : State) :
    (s.finish g op r).caller h = if h = g then { s.caller g with slot := .idle, result := some r } else s.caller h := by
  unfold State.finish; simp
@[simp] theorem slot_raise (g h : Nat) (a : Activation) (e : ErrorKind) (s : State) :
    (s.raise g a e).slot h = if h = g then .idle else s.slot h := slot_finish ..
@[simp] theorem slot_giveBack (g h : Nat) (a : Activation) (v : Value) (s : State) :
    (s.giveBack g a v).slot h = if h = g then .idle else s.slot h := slot_finish ..
@[simp] theorem slot_transmit (g h : Nat) (a : Activation) (f : Frame) (s : State) :
    (s.transmit g a f).slot h = if h = g then .active { a with reply := some (s.answer 0) } else s.slot h := by
  unfold State.transmit; simp
@[simp] theorem slot_beginCall (g h : Nat) (op : Instr) (ls : List Line) (s : State) :
    (s.beginCall g op ls).slot h =
      if h = g then .active { op := op, k := 0, dev := 0, reply := none, rest := ls } else s.slot h := slot_setSlot ..
@[simp] theorem slot_goInto (g h : Nat) (a : Activation) (ls : List Line) (s : State) :
    (s.goInto g a ls).slot h =
      if h = g then .active { a with k := a.k + 1, rest := ls ++ a.rest.tail } else s.slot h := slot_setSlot ..
@[simp] theorem slot_advanceOn (g h : Nat) (a : Activation) (d : Dev) (s : State) :
    (s.advanceOn g a d).slot h =
      if h = g then .active { a with k := a.k + 1, dev := d, rest := a.rest.tail } else s.slot h := slot_setSlot ..

/-- What `advance` does to a slot in progress. -/
theorem advance_of_active {g : Nat} {s : State} {a : Activation} (h : s.slot g = .active a) :
    s.advance g = s.setSlot g (.active { a with k := a.k + 1, rest := a.rest.tail }) := by
  unfold State.advance; rw [h]

/-! ### Draws -/

theorem Feed.ahead_take {α : Type} (free : Nat → α) (f : Feed α) (n : Nat) :
    f.take.ahead free n = f.ahead free (n + 1) := by
  obtain ⟨script, drawn⟩ := f
  cases script with
  | nil => simp only [Feed.take, Feed.ahead, List.getElem?_nil, List.length_nil]; congr 1; omega
  | cons a as => simp [Feed.take, Feed.ahead]

theorem Feed.ahead_drop {α : Type} (free : Nat → α) (k : Nat) (f : Feed α) (n : Nat) :
    (f.drop k).ahead free n = f.ahead free (n + k) := by
  induction k generalizing f with
  | zero => rfl
  | succ k ih => rw [Feed.drop, ih, Feed.ahead_take, Nat.add_assoc]

theorem Feed.drop_drop {α : Type} (j k : Nat) (f : Feed α) : (f.drop j).drop k = f.drop (j + k) := by
  induction j generalizing f with
  | zero => simp [Feed.drop]
  | succ j ih => rw [Feed.drop, ih, Nat.succ_add, Feed.drop]

@[simp] theorem answer_takeAnswers (k n : Nat) (s : State) : (s.takeAnswers k).answer n = s.answer (n + k) :=
  Feed.ahead_drop ..

@[simp] theorem takeAnswers_takeAnswers (j k : Nat) (s : State) : (s.takeAnswers j).takeAnswers k = s.takeAnswers (j + k) := by
  unfold State.takeAnswers; simp [Feed.drop_drop]

@[simp] theorem takeAnswers_zero (s : State) : s.takeAnswers 0 = s := (rfl)

theorem answer_congr {s t : State} (h : s.env.answers = t.env.answers) (n : Nat) : s.answer n = t.answer n := by
  unfold State.answer; rw [h]

end Sys2Proof.Machine
end

