-- ==== Sys2Proof/Laws/Ops.lean ====
section
/-! SUPPORT. What each line of an operation does, said once: an operation in progress from a state `s` is `s.running …`, and
one lemma a line says which such state, or which returned state, the line leads to. -/

namespace Sys2Proof.Machine

/-- The state in which the current caller's operation is at `a`, after the events `evs` and `n` transceives. -/
def State.running (s : State) (evs : List Event) (n : Nat) (a : Activation) : State :=
  { s with
    log := s.logAfter s.cur evs
    callers := setCallerAt s.callers s.cur { s.caller s.cur with slot := .active a }
    env := { s.env with answers := s.env.answers.drop n } }

section
variable (s : State) (evs : List Event) (n : Nat) (a : Activation)

@[simp] theorem running_slot : (s.running evs n a).slot s.cur = .active a := by
  simp [State.running, State.slot, State.caller]
@[simp] theorem running_cur : (s.running evs n a).cur = s.cur := rfl
@[simp] theorem running_ready : (s.running evs n a).ready = s.ready := rfl
@[simp] theorem running_powerEnabled : (s.running evs n a).powerEnabled = s.powerEnabled := rfl
@[simp] theorem running_params : (s.running evs n a).params = s.params := rfl
@[simp] theorem running_speedCeiling (d : Dev) : (s.running evs n a).speedCeiling d = s.speedCeiling d := rfl
@[simp] theorem running_activeModel (d : Dev) : (s.running evs n a).activeModel d = s.activeModel d := rfl
@[simp] theorem running_axisModel (d : Dev) : (s.running evs n a).axisModel d = s.axisModel d := rfl
@[simp] theorem running_lockOpen (g : Nat) : (s.running evs n a).lockOpen g = s.lockOpen g := rfl
@[simp] theorem running_transportReady : (s.running evs n a).transportReady = s.transportReady := rfl
@[simp] theorem running_resetPinReady : (s.running evs n a).resetPinReady = s.resetPinReady := rfl
@[simp] theorem running_powerPinReady : (s.running evs n a).powerPinReady = s.powerPinReady := rfl
@[simp] theorem running_deadlineCount : (s.running evs n a).deadlineCount = s.deadlineCount := rfl
@[simp] theorem running_answer (k : Nat) : (s.running evs n a).answer k = s.answer (k + n) := Feed.ahead_drop ..
@[simp] theorem returned_slot (op : Instr) (r : Result) : (s.returned op evs r n).slot s.cur = .idle := by
  simp [State.returned, State.slot, State.caller]

theorem beginCall_eq_running (op : Instr) (ls : List Line) :
    s.beginCall s.cur op ls = s.running [] 0 ⟨op, 0, 0, none, ls⟩ := by
  simp [State.running, State.beginCall, State.setSlot, State.setCaller, State.logAfter, Feed.drop]

theorem running_caller : (s.running evs n a).caller s.cur = { s.caller s.cur with slot := .active a } := by
  simp [State.running, State.caller]

theorem running_setSlot (b : Activation) :
    (s.running evs n a).setSlot s.cur (.active b) = s.running evs n b := by
  unfold State.setSlot; rw [running_caller]; simp [State.running, State.setCaller]

theorem running_advance :
    (s.running evs n a).advance s.cur = s.running evs n { a with k := a.k + 1, rest := a.rest.tail } := by
  rw [advance_of_active (running_slot s evs n a), running_setSlot]

theorem running_goInto (b : Activation) (ls : List Line) :
    (s.running evs n a).goInto s.cur b ls = s.running evs n { b with k := b.k + 1, rest := ls ++ b.rest.tail } := by
  unfold State.goInto; rw [running_setSlot]

theorem running_advanceOn (b : Activation) (d : Dev) :
    (s.running evs n a).advanceOn s.cur b d = s.running evs n { b with k := b.k + 1, dev := d, rest := b.rest.tail } := by
  unfold State.advanceOn; rw [running_setSlot]

theorem running_finish (op : Instr) (r : Result) :
    (s.running evs n a).finish s.cur op r = s.returned op evs r n := by
  unfold State.finish; rw [running_caller]
  simp [State.running, State.returned, State.record, State.setCaller, State.logAfter]

theorem running_raise (b : Activation) (e : ErrorKind) :
    (s.running evs n a).raise s.cur b e = s.returned b.op evs (.err e) n := running_finish ..

theorem running_giveBack (b : Activation) (v : Value) :
    (s.running evs n a).giveBack s.cur b v = s.returned b.op evs (.ok v) n := running_finish ..

theorem running_record (e : Event) : (s.running evs n a).record s.cur e = s.running (evs ++ [e]) n a := by
  simp [State.running, State.record, State.logAfter]

theorem running_transmit (b : Activation) (f : Frame) :
    (s.running evs n a).transmit s.cur b f =
      s.running (evs ++ [exchange (txOf s.params.codes b.dev f) (s.answer n)]) (n + 1) { b with reply := some (s.answer n) } := by
  have h : (s.running evs n a).answer 0 = s.answer n := by simp
  unfold State.transmit
  rw [h, running_params, running_record]
  have h2 : (s.running (evs ++ [.transceive (txOf s.params.codes b.dev f) (replyTo (txOf s.params.codes b.dev f) (s.answer n))]) n a).takeAnswers 1 =
      s.running (evs ++ [exchange (txOf s.params.codes b.dev f) (s.answer n)]) (n + 1) a := by
    simp [State.running, State.takeAnswers, Feed.drop_drop, exchange]
  rw [h2, running_setSlot]

/-! ### Running lines -/

theorem runLines_running {g : Nat} (hg : s.cur = g) (m : Nat) :
    (s.running evs n a).runLines (m + 1) g = ((s.running evs n a).lineStep g).runLines m g := by
  subst hg; simp [State.runLines]

theorem runLines_returned {g : Nat} (hg : s.cur = g) (m : Nat) (op : Instr) (r : Result) :
    (s.returned op evs r n).runLines m g = s.returned op evs r n := by
  subst hg; cases m <;> simp [State.runLines]

theorem running_lineStep (op : Instr) (k : Nat) (d : Dev) (r : Option Answer) (l : Line) (ls : List Line) :
    (s.running evs n ⟨op, k, d, r, l :: ls⟩).lineStep s.cur =
      runLine s.cur ⟨op, k, d, r, l :: ls⟩ l (s.running evs n ⟨op, k, d, r, l :: ls⟩) := by
  simp [State.lineStep]

end

end Sys2Proof.Machine
end

