-- ==== Sys2Proof/Laws/Lines.lean ====
section
/-! SUPPORT. One lemma a line: where the line leads from an operation in progress. With `runLines_running` they run an operation
symbolically. -/

namespace Sys2Proof.Machine

section
variable {s : State} {g : Nat} {evs : List Event} {n k : Nat} {op : Instr} {d : Dev} {r : Option Answer} {ls : List Line}

theorem line_checkDev {dev : U32} {e : Dev} (h : dev.toNat = e.val) (hg : s.cur = g) :
    (s.running evs n ⟨op, k, d, r, .checkDev dev :: ls⟩).lineStep g = s.running evs n ⟨op, k + 1, e, r, ls⟩ := by
  subst hg
  have h' : dev.toNat < Config.chainSize := by rw [h]; exact e.isLt
  have he : (⟨dev.toNat, h'⟩ : Dev) = e := Fin.ext h
  rw [running_lineStep]
  simp only [runLine, h', dif_pos, running_advanceOn, List.tail_cons]
  rw [he]

theorem line_checkDev_outside {dev : U32} (h : 2 ≤ dev.toNat) (hg : s.cur = g) :
    (s.running evs n ⟨op, k, d, r, .checkDev dev :: ls⟩).lineStep g = s.returned op evs (.err .invalidArgument) n := by
  subst hg
  have h' : ¬ dev.toNat < Config.chainSize := Nat.not_lt.mpr h
  rw [running_lineStep]; simp only [runLine, h', dif_neg, not_false_eq_true, running_raise]

theorem line_checkReady (hg : s.cur = g) :
    (s.running evs n ⟨op, k, d, r, .checkReady :: ls⟩).lineStep g =
      if s.ready then s.running evs n ⟨op, k + 1, d, r, ls⟩ else s.returned op evs (.err .notReady) n := by
  subst hg
  rw [running_lineStep]; simp only [runLine, running_ready, running_advance, running_raise, List.tail_cons]

theorem line_checkPower (hg : s.cur = g) :
    (s.running evs n ⟨op, k, d, r, .checkPower :: ls⟩).lineStep g =
      if s.powerEnabled then s.running evs n ⟨op, k + 1, d, r, ls⟩ else s.returned op evs (.err .powerDisabled) n := by
  subst hg
  rw [running_lineStep]; simp only [runLine, running_powerEnabled, running_advance, running_raise, List.tail_cons]

theorem line_checkSpeed (speed : U32) (hg : s.cur = g) :
    (s.running evs n ⟨op, k, d, r, .checkSpeed speed :: ls⟩).lineStep g =
      if s.speedCeiling d < speed.toNat then s.returned op evs (.err .limitExceeded) n
      else s.running evs n ⟨op, k + 1, d, r, ls⟩ := by
  subst hg
  rw [running_lineStep]; simp only [runLine, running_speedCeiling, running_advance, running_raise, List.tail_cons]

theorem line_checkSteps (steps : U32) (hg : s.cur = g) :
    (s.running evs n ⟨op, k, d, r, .checkSteps steps :: ls⟩).lineStep g =
      if s.params.maxMoveSteps.toNat < steps.toNat then s.returned op evs (.err .limitExceeded) n
      else s.running evs n ⟨op, k + 1, d, r, ls⟩ := by
  subst hg
  rw [running_lineStep]; simp only [runLine, running_params, running_advance, running_raise, List.tail_cons]

theorem line_checkAxis {axis : U32} {e : Dev} (h : axis.toNat = e.val) (hg : s.cur = g) :
    (s.running evs n ⟨op, k, d, r, .checkAxis axis :: ls⟩).lineStep g = s.running evs n ⟨op, k + 1, e, r, ls⟩ := by
  subst hg
  have h' : axis.toNat < Config.nAxes := by rw [h]; exact e.isLt
  have he : (⟨axis.toNat, h'⟩ : Dev) = e := Fin.ext h
  rw [running_lineStep]
  simp only [runLine, h', dif_pos, running_advanceOn, List.tail_cons]
  rw [he]

theorem line_checkAxis_outside {axis : U32} (h : 2 ≤ axis.toNat) (hg : s.cur = g) :
    (s.running evs n ⟨op, k, d, r, .checkAxis axis :: ls⟩).lineStep g = s.returned op evs (.err .notFound) n := by
  subst hg
  have h' : ¬ axis.toNat < Config.nAxes := Nat.not_lt.mpr h
  rw [running_lineStep]; simp only [runLine, h', dif_neg, not_false_eq_true, running_raise]

theorem line_checkTransport (hg : s.cur = g) :
    (s.running evs n ⟨op, k, d, r, .checkTransport :: ls⟩).lineStep g =
      if s.transportReady then s.takeTransportReady.running evs n ⟨op, k + 1, d, r, ls⟩
      else s.takeTransportReady.returned op evs (.err .notReady) n := by
  subst hg
  rw [running_lineStep]
  change (if s.transportReady then (s.takeTransportReady.running evs n ⟨op, k, d, r, .checkTransport :: ls⟩).advance
    s.takeTransportReady.cur else (s.takeTransportReady.running evs n ⟨op, k, d, r, .checkTransport :: ls⟩).raise
    s.takeTransportReady.cur _ _) = _
  simp only [running_advance, running_raise, List.tail_cons]

theorem line_checkPowerPin (hg : s.cur = g) :
    (s.running evs n ⟨op, k, d, r, .checkPowerPin :: ls⟩).lineStep g =
      if !s.params.hasPowerPin then s.returned op evs (.err .notReady) n
      else if s.powerPinReady then s.takePowerPin.running evs n ⟨op, k + 1, d, r, ls⟩
      else s.takePowerPin.returned op evs (.err .notReady) n := by
  subst hg
  rw [running_lineStep]
  change (if !s.params.hasPowerPin then (s.running evs n ⟨op, k, d, r, .checkPowerPin :: ls⟩).raise s.cur _ _
    else if s.powerPinReady then (s.takePowerPin.running evs n ⟨op, k, d, r, .checkPowerPin :: ls⟩).advance
    s.takePowerPin.cur else (s.takePowerPin.running evs n ⟨op, k, d, r, .checkPowerPin :: ls⟩).raise
    s.takePowerPin.cur _ _) = _
  simp only [running_advance, running_raise, List.tail_cons]

theorem line_checkResetPin (hg : s.cur = g) :
    (s.running evs n ⟨op, k, d, r, .checkResetPin :: ls⟩).lineStep g =
      if s.resetPinReady then s.takeResetPin.running evs n ⟨op, k + 1, d, r, ls⟩
      else s.takeResetPin.returned op evs (.err .notReady) n := by
  subst hg
  rw [running_lineStep]
  change (if s.resetPinReady then (s.takeResetPin.running evs n ⟨op, k, d, r, .checkResetPin :: ls⟩).advance
    s.takeResetPin.cur else (s.takeResetPin.running evs n ⟨op, k, d, r, .checkResetPin :: ls⟩).raise
    s.takeResetPin.cur _ _) = _
  simp only [running_advance, running_raise, List.tail_cons]

theorem line_tryReady (h : s.ready = true) (skip : Nat) (hg : s.cur = g) :
    (s.running evs n ⟨op, k, d, r, .tryReady skip :: ls⟩).lineStep g = s.running evs n ⟨op, k + 1, d, r, ls⟩ := by
  subst hg
  rw [running_lineStep]; simp only [runLine, running_ready, h, if_true, running_advance, List.tail_cons]

theorem line_acquireLock (h : s.lockOpen g = true) (hg : s.cur = g) :
    (s.running evs n ⟨op, k, d, r, .acquireLock :: ls⟩).lineStep g =
      State.running { s with lock := some g } evs n ⟨op, k + 1, d, r, ls⟩ := by
  subst hg
  rw [running_lineStep]; simp only [runLine, running_lockOpen, h, if_true]
  exact running_advance { s with lock := some s.cur } evs n ⟨op, k, d, r, .acquireLock :: ls⟩

theorem line_releaseLock (hg : s.cur = g) :
    (s.running evs n ⟨op, k, d, r, .releaseLock :: ls⟩).lineStep g =
      State.running { s with lock := none } evs n ⟨op, k + 1, d, r, ls⟩ := by
  subst hg
  rw [running_lineStep]
  exact running_advance { s with lock := none } evs n ⟨op, k, d, r, .releaseLock :: ls⟩

theorem line_emit (h : s.lockOpen g = true) (f : Frame) (hg : s.cur = g) :
    (s.running evs n ⟨op, k, d, r, .emit f :: ls⟩).lineStep g =
      s.running (evs ++ [exchange (txOf s.params.codes d f) (s.answer n)]) (n + 1) ⟨op, k + 1, d, some (s.answer n), ls⟩ := by
  subst hg
  rw [running_lineStep]
  simp only [runLine, running_lockOpen, h, if_true, running_transmit, running_advance, List.tail_cons]

theorem line_emit_waits (h : s.lockOpen g = false) (f : Frame) (hg : s.cur = g) :
    (s.running evs n ⟨op, k, d, r, .emit f :: ls⟩).lineStep g = s.running evs n ⟨op, k, d, r, .emit f :: ls⟩ := by
  subst hg
  rw [running_lineStep]; simp [runLine, h]

theorem line_needOk (a : Answer) (hg : s.cur = g) :
    (s.running evs n ⟨op, k, d, some a, .needOk :: ls⟩).lineStep g =
      match a with
      | .ok _ => s.running evs n ⟨op, k + 1, d, some a, ls⟩
      | .err e => s.returned op evs (.err (.transportError e)) n := by
  subst hg
  rw [running_lineStep]
  cases a <;> simp only [runLine, State.onReply, running_raise, running_advance, List.tail_cons]

theorem line_testFault (a : Answer) (hg : s.cur = g) :
    (s.running evs n ⟨op, k, d, some a, .testFault :: ls⟩).lineStep g =
      if showsFault d a then s.returned op evs (.err .faultLatched) n else s.running evs n ⟨op, k + 1, d, some a, ls⟩ := by
  subst hg
  rw [running_lineStep]
  cases a with
  | ok rx => by_cases h : faultLatched (parseStatus rx d) = true <;>
      simp [runLine, showsFault, h, running_raise, running_advance]
  | err e => simp [runLine, showsFault, running_advance]

theorem line_returnStatus (a : Answer) (hg : s.cur = g) :
    (s.running evs n ⟨op, k, d, some a, .returnStatus :: ls⟩).lineStep g =
      s.returned op evs (readResult (fun rx => .words (parseStatus rx 0) (parseStatus rx 1)) a) n := by
  subst hg
  rw [running_lineStep]
  cases a <;> simp only [runLine, State.onReply, running_raise, running_giveBack, readResult]

theorem line_returnBusy (a : Answer) (hg : s.cur = g) :
    (s.running evs n ⟨op, k, d, some a, .returnBusy :: ls⟩).lineStep g =
      s.returned op evs (readResult (fun rx => .bool ((parseStatus rx d).getLsbD 1)) a) n := by
  subst hg
  rw [running_lineStep]
  cases a <;> simp only [runLine, State.onReply, running_raise, running_giveBack, readResult, busy, bitBusy]

theorem line_returnPosition (a : Answer) (hg : s.cur = g) :
    (s.running evs n ⟨op, k, d, some a, .returnPosition :: ls⟩).lineStep g =
      s.returned op evs (readResult (fun rx => .position (parseParam22 rx d)) a) n := by
  subst hg
  rw [running_lineStep]
  cases a <;> simp only [runLine, State.onReply, running_raise, running_giveBack, readResult]

theorem line_armDeadline (dev timeoutMs pollMs : U32) (hg : s.cur = g) :
    (s.running evs n ⟨op, k, d, r, .armDeadline dev timeoutMs pollMs :: ls⟩).lineStep g =
      (s.armedFor (.waitWhileBusy dev timeoutMs pollMs)).running evs n
        ⟨op, k + 1, d, r, pollLines s.params.codes dev pollMs (s.deadlineFor timeoutMs) ++ ls⟩ := by
  subst hg
  rw [running_lineStep]
  by_cases h : timeoutMs = 0#32
  · simp only [runLine, h, if_true, running_params, running_goInto, List.tail_cons, State.armedFor, State.deadlineFor]
  · simp only [runLine, h, if_false, State.armedFor, State.deadlineFor]
    exact running_goInto s.takeDeadline evs n _ _ _

theorem line_testPoll (a : Answer) (dev pollMs : U32) (left : Nat) (hg : s.cur = g) :
    (s.running evs n ⟨op, k, d, some a, .testPoll dev pollMs left :: ls⟩).lineStep g =
      match a with
      | .err e => s.returned op evs (.err (.transportError e)) n
      | .ok rx => if showsBusy d (.ok rx) then s.running evs n ⟨op, k + 1, d, some a, .testDeadline dev pollMs left :: ls⟩
        else s.returned op evs (.ok .unit) n := by
  subst hg
  rw [running_lineStep]
  cases a with
  | ok rx => by_cases h : (parseStatus rx d).getLsbD 1 = true <;>
      simp [runLine, State.onReply, showsBusy, busy, bitBusy, h, running_giveBack, running_goInto]
  | err e => simp [runLine, State.onReply, running_raise]

theorem line_testDeadline_passed (dev pollMs : U32) (hg : s.cur = g) :
    (s.running evs n ⟨op, k, d, r, .testDeadline dev pollMs 0 :: ls⟩).lineStep g =
      s.returned op evs (.err .timeout) n := by
  subst hg
  rw [running_lineStep]; simp only [runLine, running_raise]

theorem line_testDeadline (dev pollMs : U32) (left : Nat) (hg : s.cur = g) :
    (s.running evs n ⟨op, k, d, r, .testDeadline dev pollMs (left + 1) :: ls⟩).lineStep g =
      s.running evs n ⟨op, k + 1, d, r, .sleep pollMs.toNat :: (pollLines s.params.codes dev pollMs left ++ ls)⟩ := by
  subst hg
  rw [running_lineStep]; simp only [runLine, running_params, running_goInto, List.tail_cons, List.cons_append]

theorem line_sleep (ms : Nat) (hg : s.cur = g) :
    (s.running evs n ⟨op, k, d, r, .sleep ms :: ls⟩).lineStep g =
      s.running (evs ++ [.sleep ms]) n ⟨op, k + 1, d, r, ls⟩ := by
  subst hg
  rw [running_lineStep]; simp only [runLine, running_record, running_advance, List.tail_cons]

theorem line_driveReset (level : Level) (hg : s.cur = g) :
    (s.running evs n ⟨op, k, d, r, .driveReset level :: ls⟩).lineStep g =
      s.running (evs ++ [.resetPin level]) n ⟨op, k + 1, d, r, ls⟩ := by
  subst hg
  rw [running_lineStep]; simp only [runLine, running_record, running_advance, List.tail_cons]

theorem line_setReady (hg : s.cur = g) :
    (s.running evs n ⟨op, k, d, r, .setReady :: ls⟩).lineStep g =
      State.running { s with ready := true } evs n ⟨op, k + 1, d, r, ls⟩ := by
  subst hg
  rw [running_lineStep]
  exact running_advance { s with ready := true } evs n ⟨op, k, d, r, .setReady :: ls⟩

theorem line_switchPower (on : Bool) (hg : s.cur = g) :
    (s.running evs n ⟨op, k, d, r, .switchPower on :: ls⟩).lineStep g =
      State.running { s with powerEnabled := on } (evs ++ [.powerPin on]) n ⟨op, k + 1, d, r, ls⟩ := by
  subst hg
  rw [running_lineStep]; simp only [runLine, running_record]
  exact running_advance { s with powerEnabled := on } (evs ++ [.powerPin on]) n ⟨op, k, d, r, .switchPower on :: ls⟩

theorem line_rearm (axis : Dev) (hg : s.cur = g) :
    (s.running evs n ⟨op, k, d, r, .rearm axis :: ls⟩).lineStep g =
      match s.activeModel axis with
      | some m => s.running evs n ⟨op, k + 1, d, r, applyLines s.params.codes (BitVec.ofNat 32 axis.val) m ++ ls⟩
      | none => s.running evs n ⟨op, k + 1, d, r, ls⟩ := by
  subst hg
  rw [running_lineStep]
  cases h : s.activeModel axis <;>
    simp only [runLine, running_activeModel, running_params, h, running_goInto, running_advance, List.tail_cons]

theorem line_findIndex (index : U32) (hg : s.cur = g) :
    (s.running evs n ⟨op, k, d, r, .findIndex index :: ls⟩).lineStep g =
      match lookupByIndex s.params.catalog index with
      | some _ => s.running evs n ⟨op, k + 1, d, r, .setAxis index :: .persist index :: ls⟩
      | none => s.returned op evs (.err .notFound) n := by
  subst hg
  rw [running_lineStep]
  cases h : lookupByIndex s.params.catalog index <;>
    simp only [runLine, running_params, h, running_goInto, running_raise, List.tail_cons, List.cons_append, List.nil_append]

theorem line_findName (name : String) (hg : s.cur = g) :
    (s.running evs n ⟨op, k, d, r, .findName name :: ls⟩).lineStep g =
      match lookupByName s.params.catalog name with
      | some (i, _) => s.running evs n ⟨op, k + 1, d, r, .setAxis i :: .persist i :: ls⟩
      | none => s.returned op evs (.err .notFound) n := by
  subst hg
  rw [running_lineStep]
  cases h : lookupByName s.params.catalog name <;>
    simp only [runLine, running_params, h, running_goInto, running_raise, List.tail_cons, List.cons_append, List.nil_append]

theorem line_setAxis (i : U32) (hg : s.cur = g) :
    (s.running evs n ⟨op, k, d, r, .setAxis i :: ls⟩).lineStep g =
      (s.setAxisModel d i).running evs n ⟨op, k + 1, d, r, ls⟩ := by
  subst hg
  rw [running_lineStep]
  have hc : s.cur = (s.setAxisModel d i).cur := by simp
  have : (s.running evs n ⟨op, k, d, r, .setAxis i :: ls⟩).setAxisModel d i =
      (s.setAxisModel d i).running evs n ⟨op, k, d, r, .setAxis i :: ls⟩ := by
    unfold State.setAxisModel; split <;> rfl
  simp only [runLine, this]
  rw [hc, running_advance, List.tail_cons]

theorem line_persist (i : U32) (hg : s.cur = g) :
    (s.running evs n ⟨op, k, d, r, .persist i :: ls⟩).lineStep g =
      s.running (evs ++ [.persist d i]) n ⟨op, k + 1, d, r, ls⟩ := by
  subst hg
  rw [running_lineStep]; simp only [runLine, running_record, running_advance, List.tail_cons]

theorem line_returnModel {m : MotorModel} (h : s.activeModel d = some m) (hg : s.cur = g) :
    (s.running evs n ⟨op, k, d, r, .returnModel :: ls⟩).lineStep g =
      s.returned op evs (.ok (.model (s.axisModel d) m)) n := by
  subst hg
  rw [running_lineStep]; simp only [runLine, running_activeModel, h, running_giveBack, running_axisModel]

theorem line_returnUnit (hg : s.cur = g) :
    (s.running evs n ⟨op, k, d, r, .returnUnit :: ls⟩).lineStep g = s.returned op evs (.ok .unit) n := by
  subst hg
  rw [running_lineStep]; simp only [runLine, running_giveBack]

end

end Sys2Proof.Machine
end

