-- ==== Sys2Proof/Laws/PerInstr.lean ====
section
/-! SUPPORT. The round trip of every instruction: decoding the frame an instruction encodes to gives the instruction back. -/

namespace Sys2Proof.Laws.RoundTrip

/-- In every legal configuration, whatever frame `i` encodes to decodes to `i`; a host operation encodes to none (`30_encoding.md` R80). -/
def Statement (i : Instr) : Prop :=
  ∀ (c : Codes) (f : Frame), c.legal = true → encodeFrame c i = some f → decodeFrame c f = .ok i

/-! ### The fields of a value, put together again -/

theorem reg16_join (v : BitVec 16) : v.extractLsb' 8 8 ++ v.extractLsb' 0 8 = v := by
  ext i h
  simp only [BitVec.getElem_append, BitVec.getElem_extractLsb']
  split
  · simp [h]
  · simp; grind

theorem dir20_join (v : BitVec 20) :
    (0#4 ++ v.extractLsb' 16 4 : BitVec 8).extractLsb' 0 4 ++ v.extractLsb' 8 8 ++ v.extractLsb' 0 8 = v := by
  ext i h
  simp only [BitVec.getElem_append, BitVec.getElem_extractLsb', BitVec.getLsbD_append, BitVec.getLsbD_extractLsb']
  split
  · simp [h]
  · split
    · simp; grind
    · simp; grind

theorem dir22_join (v : BitVec 22) :
    (0#2 ++ v.extractLsb' 16 6 : BitVec 8).extractLsb' 0 6 ++ v.extractLsb' 8 8 ++ v.extractLsb' 0 8 = v := by
  ext i h
  simp only [BitVec.getElem_append, BitVec.getElem_extractLsb', BitVec.getLsbD_append, BitVec.getLsbD_extractLsb']
  split
  · simp [h]
  · split
    · simp; grind
    · simp; grind

theorem dir20_top (v : BitVec 20) : (0#4 ++ v.extractLsb' 16 4 : BitVec 8).extractLsb' 4 4 = 0#4 := by
  ext i h; simp; grind

theorem dir22_top (v : BitVec 22) : (0#2 ++ v.extractLsb' 16 6 : BitVec 8).extractLsb' 6 2 = 0#2 := by
  ext i h; simp; grind

/-! ### The opcode map -/

theorem legal_nodup {c : Codes} (h : c.legal = true) : c.emittedOpcodes.Nodup := by
  simp only [Codes.legal, Bool.and_eq_true, decide_eq_true_eq] at h
  exact h.2

/-- The map's opcode bytes are the 26 of R91, in its order. -/
theorem opcodeMap_opcodes (c : Codes) : (opcodeMap c).map OpcodeRow.opcode = c.emittedOpcodes := rfl

theorem find_row {rows : List OpcodeRow} (hn : (rows.map OpcodeRow.opcode).Nodup) {r : OpcodeRow} (hr : r ∈ rows) :
    rows.find? (fun q => q.opcode == r.opcode) = some r := by
  induction rows with
  | nil => cases hr
  | cons q rows ih =>
    simp only [List.map_cons, List.nodup_cons] at hn
    by_cases hq : q.opcode = r.opcode
    · rcases List.mem_cons.mp hr with rfl | hr
      · simp
      · exact absurd (hq ▸ List.mem_map_of_mem hr) hn.1
    · rcases List.mem_cons.mp hr with rfl | hr
      · exact absurd rfl hq
      · rw [List.find?_cons_of_neg (by simpa using hq), ih hn.2 hr]

/-- A frame that starts with a row's opcode is read by that row. -/
theorem decodeFrame_row {c : Codes} (hl : c.legal = true) {r : OpcodeRow} (hr : r ∈ opcodeMap c) {f : Frame}
    (hb : f.b0 = r.opcode) : decodeFrame c f = r.read f := by
  unfold decodeFrame
  rw [hb, find_row (by rw [opcodeMap_opcodes]; exact legal_nodup hl) hr]

theorem decodeFrame_at {c : Codes} (hl : c.legal = true) (k : Nat) {r : OpcodeRow} (hk : (opcodeMap c)[k]? = some r)
    {f : Frame} (hb : f.b0 = r.opcode) : decodeFrame c f = r.read f :=
  decodeFrame_row hl (List.mem_of_getElem? hk) hb

/-! ### One lemma a constructor -/

theorem frameNop : Statement .frameNop := by
  intro c f hl h
  cases h
  refine (decodeFrame_at hl 2 rfl rfl).trans ?_
  simp [decodeNoarg, fmtNoarg]

theorem frameSetParamAcc (value : BitVec 16) : Statement (.frameSetParamAcc value) := by
  intro c f hl h
  cases h
  refine (decodeFrame_at hl 3 rfl rfl).trans ?_
  simp [decodeReg16, fmtReg16, reg16_join]

theorem frameSetParamDec (value : BitVec 16) : Statement (.frameSetParamDec value) := by
  intro c f hl h
  cases h
  refine (decodeFrame_at hl 4 rfl rfl).trans ?_
  simp [decodeReg16, fmtReg16, reg16_join]

theorem frameSetParamMaxSpeed (value : BitVec 16) : Statement (.frameSetParamMaxSpeed value) := by
  intro c f hl h
  cases h
  refine (decodeFrame_at hl 5 rfl rfl).trans ?_
  simp [decodeReg16, fmtReg16, reg16_join]

theorem frameSetParamKvalHold (value : BitVec 8) : Statement (.frameSetParamKvalHold value) := by
  intro c f hl h
  cases h
  refine (decodeFrame_at hl 6 rfl rfl).trans ?_
  simp [decodeReg8, fmtReg8]

theorem frameSetParamKvalRun (value : BitVec 8) : Statement (.frameSetParamKvalRun value) := by
  intro c f hl h
  cases h
  refine (decodeFrame_at hl 7 rfl rfl).trans ?_
  simp [decodeReg8, fmtReg8]

theorem frameSetParamKvalAcc (value : BitVec 8) : Statement (.frameSetParamKvalAcc value) := by
  intro c f hl h
  cases h
  refine (decodeFrame_at hl 8 rfl rfl).trans ?_
  simp [decodeReg8, fmtReg8]

theorem frameSetParamKvalDec (value : BitVec 8) : Statement (.frameSetParamKvalDec value) := by
  intro c f hl h
  cases h
  refine (decodeFrame_at hl 9 rfl rfl).trans ?_
  simp [decodeReg8, fmtReg8]

theorem frameSetParamOcdTh (value : BitVec 8) : Statement (.frameSetParamOcdTh value) := by
  intro c f hl h
  cases h
  refine (decodeFrame_at hl 10 rfl rfl).trans ?_
  simp [decodeReg8, fmtReg8]

theorem frameSetParamStallTh (value : BitVec 8) : Statement (.frameSetParamStallTh value) := by
  intro c f hl h
  cases h
  refine (decodeFrame_at hl 11 rfl rfl).trans ?_
  simp [decodeReg8, fmtReg8]

theorem frameSetParamStepMode (value : BitVec 8) : Statement (.frameSetParamStepMode value) := by
  intro c f hl h
  cases h
  refine (decodeFrame_at hl 12 rfl rfl).trans ?_
  simp [decodeReg8, fmtReg8]

theorem frameGetParamAbsPos : Statement .frameGetParamAbsPos := by
  intro c f hl h
  cases h
  refine (decodeFrame_at hl 1 rfl rfl).trans ?_
  simp [decodeNoarg, fmtNoarg]

theorem frameMove0 (steps : BitVec 22) : Statement (.frameMove0 steps) := by
  intro c f hl h
  cases h
  refine (decodeFrame_at hl 13 rfl rfl).trans ?_
  simp [decodeDir22, fmtDir22, dir22_top, dir22_join]

theorem frameMove1 (steps : BitVec 22) : Statement (.frameMove1 steps) := by
  intro c f hl h
  cases h
  refine (decodeFrame_at hl 14 rfl rfl).trans ?_
  simp [decodeDir22, fmtDir22, dir22_top, dir22_join]

theorem frameRun0 (speed : BitVec 20) : Statement (.frameRun0 speed) := by
  intro c f hl h
  cases h
  refine (decodeFrame_at hl 15 rfl rfl).trans ?_
  simp [decodeDir20, fmtDir20, dir20_top, dir20_join]

theorem frameRun1 (speed : BitVec 20) : Statement (.frameRun1 speed) := by
  intro c f hl h
  cases h
  refine (decodeFrame_at hl 16 rfl rfl).trans ?_
  simp [decodeDir20, fmtDir20, dir20_top, dir20_join]

theorem frameGoto (absPos : BitVec 22) : Statement (.frameGoto absPos) := by
  intro c f hl h
  cases h
  refine (decodeFrame_at hl 17 rfl rfl).trans ?_
  simp [decodeDir22, fmtDir22, dir22_top, dir22_join]

theorem frameGotoDir0 (absPos : BitVec 22) : Statement (.frameGotoDir0 absPos) := by
  intro c f hl h
  cases h
  refine (decodeFrame_at hl 18 rfl rfl).trans ?_
  simp [decodeDir22, fmtDir22, dir22_top, dir22_join]

theorem frameGotoDir1 (absPos : BitVec 22) : Statement (.frameGotoDir1 absPos) := by
  intro c f hl h
  cases h
  refine (decodeFrame_at hl 19 rfl rfl).trans ?_
  simp [decodeDir22, fmtDir22, dir22_top, dir22_join]

theorem frameGoHome : Statement .frameGoHome := by
  intro c f hl h
  cases h
  refine (decodeFrame_at hl 20 rfl rfl).trans ?_
  simp [decodeNoarg, fmtNoarg]

theorem frameSoftHiz : Statement .frameSoftHiz := by
  intro c f hl h
  cases h
  refine (decodeFrame_at hl 21 rfl rfl).trans ?_
  simp [decodeNoarg, fmtNoarg]

theorem frameHardHiz : Statement .frameHardHiz := by
  intro c f hl h
  cases h
  refine (decodeFrame_at hl 22 rfl rfl).trans ?_
  simp [decodeNoarg, fmtNoarg]

theorem frameSoftStop : Statement .frameSoftStop := by
  intro c f hl h
  cases h
  refine (decodeFrame_at hl 23 rfl rfl).trans ?_
  simp [decodeNoarg, fmtNoarg]

theorem frameHardStop : Statement .frameHardStop := by
  intro c f hl h
  cases h
  refine (decodeFrame_at hl 24 rfl rfl).trans ?_
  simp [decodeNoarg, fmtNoarg]

theorem frameGetStatus : Statement .frameGetStatus := by
  intro c f hl h
  cases h
  refine (decodeFrame_at hl 0 rfl rfl).trans ?_
  simp [decodeNoarg, fmtNoarg]

theorem frameResetPos : Statement .frameResetPos := by
  intro c f hl h
  cases h
  refine (decodeFrame_at hl 25 rfl rfl).trans ?_
  simp [decodeNoarg, fmtNoarg]

theorem packRun (dev : Dev) (dir : U8) (speedRaw : U32) : Statement (.packRun dev dir speedRaw) := by intro c f hl h; cases h

theorem packMove (dev : Dev) (dir : U8) (stepsRaw : U32) : Statement (.packMove dev dir stepsRaw) := by intro c f hl h; cases h

theorem packGoto (dev : Dev) (absPos : I32) : Statement (.packGoto dev absPos) := by intro c f hl h; cases h

theorem packGotoDir (dev : Dev) (dir : U8) (absPos : I32) : Statement (.packGotoDir dev dir absPos) := by intro c f hl h; cases h

theorem packNoarg (dev : Dev) (opcode : U8) : Statement (.packNoarg dev opcode) := by intro c f hl h; cases h

theorem packGetStatusOpcodes : Statement .packGetStatusOpcodes := by intro c f hl h; cases h

theorem packRegisterWrite1 (dev : Dev) (opcode : U8) (value : U32) : Statement (.packRegisterWrite1 dev opcode value) := by intro c f hl h; cases h

theorem packRegisterWrite2 (dev : Dev) (opcode : U8) (value : U32) : Statement (.packRegisterWrite2 dev opcode value) := by intro c f hl h; cases h

theorem packRegisterWrite3 (dev : Dev) (opcode : U8) (value : U32) : Statement (.packRegisterWrite3 dev opcode value) := by intro c f hl h; cases h

theorem chainSingle (dev : Dev) (frame : Frame) : Statement (.chainSingle dev frame) := by intro c f hl h; cases h

theorem withClockout (cb : ChainBuf) : Statement (.withClockout cb) := by intro c f hl h; cases h

theorem parseStatus (reply : ReadBuf) (dev : Dev) : Statement (.parseStatus reply dev) := by intro c f hl h; cases h

theorem parseParam22 (reply : ReadBuf) (dev : Dev) : Statement (.parseParam22 reply dev) := by intro c f hl h; cases h

theorem encodeMaxSpeed (stepsPerSec : U32) : Statement (.encodeMaxSpeed stepsPerSec) := by intro c f hl h; cases h

theorem encodeAccDec (stepsPerSec2 : U32) : Statement (.encodeAccDec stepsPerSec2) := by intro c f hl h; cases h

theorem encodeStallThresholdMa (ma : U32) : Statement (.encodeStallThresholdMa ma) := by intro c f hl h; cases h

theorem encodeOcdThresholdMa (ma : U32) : Statement (.encodeOcdThresholdMa ma) := by intro c f hl h; cases h

theorem encodeMicrostepExponent (divisor : I32) : Statement (.encodeMicrostepExponent divisor) := by intro c f hl h; cases h

theorem getStatusAll : Statement .getStatusAll := by intro c f hl h; cases h

theorem isBusy (dev : U32) : Statement (.isBusy dev) := by intro c f hl h; cases h

theorem getAbsPos (dev : U32) : Statement (.getAbsPos dev) := by intro c f hl h; cases h

theorem waitWhileBusy (dev : U32) (timeoutMs : U32) (pollIntervalMs : U32) : Statement (.waitWhileBusy dev timeoutMs pollIntervalMs) := by intro c f hl h; cases h

theorem run (dev : U32) (dir : U8) (speed : U32) : Statement (.run dev dir speed) := by intro c f hl h; cases h

theorem move (dev : U32) (dir : U8) (steps : U32) : Statement (.move dev dir steps) := by intro c f hl h; cases h

theorem goto (dev : U32) (absPos : I32) : Statement (.goto dev absPos) := by intro c f hl h; cases h

theorem gotoDir (dev : U32) (dir : U8) (absPos : I32) : Statement (.gotoDir dev dir absPos) := by intro c f hl h; cases h

theorem goHome (dev : U32) : Statement (.goHome dev) := by intro c f hl h; cases h

theorem resetPos (dev : U32) : Statement (.resetPos dev) := by intro c f hl h; cases h

theorem softStop (dev : U32) : Statement (.softStop dev) := by intro c f hl h; cases h

theorem hardStop (dev : U32) : Statement (.hardStop dev) := by intro c f hl h; cases h

theorem disableOutputs (dev : U32) (hard : Bool) : Statement (.disableOutputs dev hard) := by intro c f hl h; cases h

theorem init : Statement .init := by intro c f hl h; cases h

theorem powerEnable : Statement .powerEnable := by intro c f hl h; cases h

theorem powerDisable : Statement .powerDisable := by intro c f hl h; cases h

theorem reset : Statement .reset := by intro c f hl h; cases h

theorem applyModelParams (dev : U32) (model : MotorModel) : Statement (.applyModelParams dev model) := by intro c f hl h; cases h

theorem setActiveModel (axis : U32) (index : U32) : Statement (.setActiveModel axis index) := by intro c f hl h; cases h

theorem setActiveModelByName (axis : U32) (name : String) : Statement (.setActiveModelByName axis name) := by intro c f hl h; cases h

theorem getActiveModel (axis : U32) : Statement (.getActiveModel axis) := by intro c f hl h; cases h

theorem decodeCompact (status : U16) : Statement (.decodeCompact status) := by intro c f hl h; cases h

theorem decodeVerbose (status : U16) : Statement (.decodeVerbose status) := by intro c f hl h; cases h

end Sys2Proof.Laws.RoundTrip
end

