-- ==== Sys2Proof/Laws/Calls.lean ====
section
/-! SUPPORT. Facts that the runs of whole operations share: a call from an idle slot, the buffers the frames go out in, the
polls of a wait, and a sequence of single-frame commands. -/

namespace Sys2Proof.Machine

/-- A call from an idle slot runs the operation's lines. -/
theorem call_idle {s : State} (h : s.slot s.cur = .idle) (op : Instr) (ls : List Line) :
    call op ls s = .next ((s.running [] 0 ⟨op, 0, 0, none, ls⟩).runLines s.callFuel s.cur) := by
  simp only [call, h, beginCall_eq_running]

/-! ### The catalog port (R29, R268) -/

theorem catalogCount_toNat {p : Params} (h : p.legal = true) : (catalogCount p.catalog).toNat = p.catalog.length := by
  simp only [Params.legal, Bool.and_eq_true, decide_eq_true_eq] at h
  rw [catalogCount, BitVec.toNat_ofNat]
  exact Nat.mod_eq_of_lt h.1.1.2

/-- `lookup_by_index(i)` finds a record exactly when `i < count()`. -/
theorem lookupByIndex_isSome {p : Params} (h : p.legal = true) (i : U32) :
    (lookupByIndex p.catalog i).isSome = true ↔ i < catalogCount p.catalog := by
  rw [BitVec.lt_def, catalogCount_toNat h]; simp [lookupByIndex]

/-- A name no entry has is not found. -/
theorem lookupByName_none {name : String} : ∀ {ms : List MotorModel}, (∀ m ∈ ms, m.name ≠ name) → lookupByName ms name = none
  | [], _ => rfl
  | m :: ms, h => by
    have h1 := h m (by simp)
    rw [lookupByName, if_neg h1, lookupByName_none fun m' hm => h m' (List.mem_cons_of_mem _ hm)]; rfl

/-- `lookup_by_name(s)` finds the least index whose name is `s`, with its record. -/
theorem lookupByName_least {name : String} : ∀ {ms : List MotorModel} {i : Nat} {m : MotorModel}, ms[i]? = some m → m.name = name →
    (∀ j m', j < i → ms[j]? = some m' → m'.name ≠ name) → lookupByName ms name = some (BitVec.ofNat 32 i, m)
  | [], i, m, h, _, _ => by simp at h
  | m0 :: ms, 0, m, h, hn, _ => by
    obtain rfl : m0 = m := by simpa using h
    rw [lookupByName, if_pos hn]
  | m0 :: ms, i + 1, m, h, hn, hl => by
    rw [lookupByName, if_neg (hl 0 m0 (by omega) (by simp)),
      lookupByName_least (by simpa using h) hn fun j m' hj hm => hl (j + 1) m' (by omega) (by simpa using hm)]
    simp [BitVec.ofNat_add]

/-! ### Buffers -/

theorem chainSingle_eq (c : Codes) (d : Dev) (f : Frame) : chainSingle c d f = singleSlot c d f := by
  unfold chainSingle singleSlot nopFrame packNoarg
  match d with
  | 0 => rfl
  | 1 => rfl

theorem txOf_status (c : Codes) (d : Dev) : txOf c d (getStatusFrame c) = statusBuf c := by
  simp [txOf, getStatusFrame, packNoarg, statusBuf, withClockout, packGetStatusOpcodes, nopPhase, clockOutPhase]

theorem txOf_position {c : Codes} (hl : c.legal = true) (d : Dev) : txOf c d (packNoarg 0 c.opcGetAbsPos) = positionBuf c d := by
  have h : ¬ c.opcGetAbsPos = c.opcGetStatus := fun h => by
    have := Laws.RoundTrip.legal_nodup hl
    simp [Codes.emittedOpcodes, h] at this
  simp only [txOf, packNoarg, h, if_false, if_true, chainSingle_eq]
  rfl

/-- Every other frame goes out in one slot of an 8-byte buffer. -/
theorem txOf_single {c : Codes} (hl : c.legal = true) (d : Dev) {f : Frame} (h : f.b0 ∈ c.singleOpcodes) :
    txOf c d f = singleBuf c d f := by
  have hn := Laws.RoundTrip.legal_nodup hl
  simp only [Codes.emittedOpcodes, List.nodup_cons, List.mem_cons, not_or] at hn
  have h1 : f.b0 ≠ c.opcGetStatus := fun he => hn.1.2 (he ▸ h)
  have h2 : f.b0 ≠ c.opcGetAbsPos := fun he => hn.2.1 (he ▸ h)
  simp [txOf, h1, h2, singleBuf, chainSingle_eq]

theorem dirBit_cases (dir : U8) : dirBit dir = 0#8 ∨ dirBit dir = 1#8 := by
  revert dir; decide

theorem packRun_mem (c : Codes) (d : Dev) (dir : U8) (v : U32) : (packRun d dir v).b0 ∈ c.singleOpcodes := by
  rcases dirBit_cases dir with h | h <;> simp [packRun, h, Codes.singleOpcodes]

theorem packMove_mem (c : Codes) (d : Dev) (dir : U8) (v : U32) : (packMove d dir v).b0 ∈ c.singleOpcodes := by
  rcases dirBit_cases dir with h | h <;> simp [packMove, frame22, h, Codes.singleOpcodes]

theorem packGoto_mem (c : Codes) (d : Dev) (v : I32) : (packGoto c d v).b0 ∈ c.singleOpcodes := by
  simp [packGoto, frame22, Codes.singleOpcodes]

theorem packGotoDir_mem (c : Codes) (d : Dev) (dir : U8) (v : I32) : (packGotoDir c d dir v).b0 ∈ c.singleOpcodes := by
  rcases dirBit_cases dir with h | h <;> simp [packGotoDir, frame22, h, Codes.singleOpcodes]

theorem paramFrames_mem (c : Codes) (m : MotorModel) : ∀ f ∈ paramFrames c m, f.b0 ∈ c.singleOpcodes := by
  simp [paramFrames, Codes.singleOpcodes]

/-! ### A state whose deadline is armed -/

@[simp] theorem armedFor_cur (s : State) (i : Instr) : (s.armedFor i).cur = s.cur := by
  cases i <;> simp only [State.armedFor]; split <;> rfl
@[simp] theorem armedFor_params (s : State) (i : Instr) : (s.armedFor i).params = s.params := by
  cases i <;> simp only [State.armedFor]; split <;> rfl
@[simp] theorem armedFor_answer (s : State) (i : Instr) (k : Nat) : (s.armedFor i).answer k = s.answer k := by
  cases i <;> simp only [State.armedFor]; split <;> rfl
@[simp] theorem armedFor_ready (s : State) (i : Instr) : (s.armedFor i).ready = s.ready := by
  cases i <;> simp only [State.armedFor]; split <;> rfl
@[simp] theorem armedFor_lockOpen (s : State) (i : Instr) (g : Nat) : (s.armedFor i).lockOpen g = s.lockOpen g := by
  cases i <;> simp only [State.armedFor]; split <;> rfl

/-! ### The polls of a wait -/

/-- The events of the polls `n` to `n + j`. -/
def pollEvents (s : State) (ms n : Nat) : Nat → List Event
  | 0 => [exchange (statusBuf s.params.codes) (s.answer n)]
  | j + 1 => [exchange (statusBuf s.params.codes) (s.answer n), .sleep ms] ++ pollEvents s ms (n + 1) j

theorem pollEvents_succ (s : State) (ms n j : Nat) :
    pollEvents s ms n (j + 1) = pollEvents s ms n j ++ [.sleep ms, exchange (statusBuf s.params.codes) (s.answer (n + j + 1))] := by
  induction j generalizing n with
  | zero => rfl
  | succ j ih =>
    rw [pollEvents, ih (n + 1), show n + 1 + j + 1 = n + (j + 1) + 1 by omega]
    simp [pollEvents]

theorem waitEvents_eq (s : State) (ms j : Nat) : s.waitEvents ms j = pollEvents s ms 0 j := by
  induction j with
  | zero => rfl
  | succ j ih => rw [pollEvents_succ, State.waitEvents, ih, Nat.zero_add]

/-- One busy poll and the sleep after it. -/
theorem poll_again {s : State} {g : Nat} (hg : s.cur = g) (hl : s.lockOpen g = true) (hr : s.ready = true) {dev pollMs : U32}
    {d : Dev} (hd : dev.toNat = d.val) {n : Nat} (hb : showsBusy d (s.answer n) = true) (op : Instr) (evs : List Event)
    (k : Nat) (e : Dev) (r : Option Answer) (left fuel : Nat) :
    (s.running evs n ⟨op, k, e, r, pollLines s.params.codes dev pollMs (left + 1)⟩).runLines (fuel + 6) g =
      (s.running (evs ++ [exchange (statusBuf s.params.codes) (s.answer n), .sleep pollMs.toNat]) (n + 1)
        ⟨op, k + 6, d, some (s.answer n), pollLines s.params.codes dev pollMs left⟩).runLines fuel g := by
  rw [show pollLines s.params.codes dev pollMs (left + 1) =
    [.checkDev dev, .checkReady, .emit (getStatusFrame s.params.codes), .testPoll dev pollMs (left + 1)] from rfl]
  simp only [runLines_running, hg, line_checkDev hd, line_checkReady, hr, if_true, line_emit hl, txOf_status, line_testPoll]
  cases ha : s.answer n with
  | err e => simp [ha, showsBusy] at hb
  | ok rx =>
    rw [ha] at hb
    simp only [hb, if_true, runLines_running, hg, line_testDeadline, line_sleep, List.append_nil, List.append_assoc,
      List.cons_append, List.nil_append]

/-- A wait whose first `j` polls show the device busy reaches the test of poll `j`. -/
theorem wait_reaches_poll {s : State} {g : Nat} (hg : s.cur = g) (hl : s.lockOpen g = true) (hr : s.ready = true)
    {dev pollMs : U32} {d : Dev} (hd : dev.toNat = d.val) (op : Instr) (j : Nat) :
    ∀ (left n : Nat) (evs : List Event) (e : Dev) (k : Nat) (r : Option Answer) (fuel : Nat), j ≤ left →
      (∀ i < j, showsBusy d (s.answer (n + i)) = true) →
      (s.running evs n ⟨op, k, e, r, pollLines s.params.codes dev pollMs left⟩).runLines (fuel + 6 * j + 3) g =
        (s.running (evs ++ pollEvents s pollMs.toNat n j) (n + j + 1)
          ⟨op, k + 6 * j + 3, d, some (s.answer (n + j)), [.testPoll dev pollMs (left - j)]⟩).runLines fuel g := by
  induction j with
  | zero =>
    intro left n evs e k r fuel _ _
    rw [show pollLines s.params.codes dev pollMs left =
      [.checkDev dev, .checkReady, .emit (getStatusFrame s.params.codes), .testPoll dev pollMs left] from rfl]
    simp only [Nat.mul_zero, Nat.add_zero, runLines_running, hg, line_checkDev hd, line_checkReady, hr, if_true,
      line_emit hl, txOf_status, pollEvents, Nat.sub_zero]
  | succ j ih =>
    intro left n evs e k r fuel hle hb
    obtain ⟨left, rfl⟩ : ∃ l, left = l + 1 := ⟨left - 1, by omega⟩
    rw [show fuel + 6 * (j + 1) + 3 = (fuel + 6 * j + 3) + 6 by omega,
      poll_again hg hl hr hd (by simpa using hb 0 (by omega)),
      ih left (n + 1) _ d _ _ fuel (by omega) fun i hi => by
        have := hb (i + 1) (by omega); rwa [show n + 1 + i = n + (i + 1) by omega]]
    rw [show n + (j + 1) = n + 1 + j by omega, show left + 1 - (j + 1) = left - j by omega,
      show k + 6 * (j + 1) + 3 = k + 6 + 6 * j + 3 by omega, pollEvents, List.append_assoc]

/-! ### A sequence of single-frame commands -/

theorem exchanges_append (s : State) (xs ys : List Buf) (n : Nat) :
    s.exchanges n (xs ++ ys) = s.exchanges n xs ++ s.exchanges (n + xs.length) ys := by
  induction xs generalizing n with
  | nil => rfl
  | cons x xs ih => simp [State.exchanges, ih, Nat.add_comm, Nat.add_left_comm]

/-- One command that succeeds. -/
theorem send_ok {s : State} {g : Nat} (hg : s.cur = g) (hl : s.lockOpen g = true) {n : Nat} (ha : failed (s.answer n) = false)
    (f : Frame) (op : Instr) (evs : List Event) (k : Nat) (d : Dev) (r : Option Answer) (ls : List Line) (fuel : Nat) :
    (s.running evs n ⟨op, k, d, r, sendLines f ++ ls⟩).runLines (fuel + 2) g =
      (s.running (evs ++ [exchange (txOf s.params.codes d f) (s.answer n)]) (n + 1) ⟨op, k + 2, d, some (s.answer n), ls⟩).runLines fuel g := by
  simp only [sendLines, List.cons_append, List.nil_append, runLines_running, hg, line_emit hl, line_needOk]
  cases h : s.answer n with
  | err e => simp [h, failed] at ha
  | ok rx => rfl

/-- One command that fails ends its operation. -/
theorem send_err {s : State} {g : Nat} (hg : s.cur = g) (hl : s.lockOpen g = true) {n : Nat} {x : TransportErr}
    (ha : s.answer n = .err x) (f : Frame) (op : Instr) (evs : List Event) (k : Nat) (d : Dev) (r : Option Answer)
    (ls : List Line) (fuel : Nat) :
    (s.running evs n ⟨op, k, d, r, sendLines f ++ ls⟩).runLines (fuel + 2) g =
      s.returned op (evs ++ [exchange (txOf s.params.codes d f) (s.answer n)]) (.err (.transportError x)) (n + 1) := by
  simp only [sendLines, List.cons_append, List.nil_append, runLines_running, hg, line_emit hl, line_needOk, ha,
    runLines_returned]

/-- Commands that all succeed. -/
theorem sends_ok {s : State} {g : Nat} (hg : s.cur = g) (hl : s.lockOpen g = true) (op : Instr) (d : Dev) (ls : List Line) :
    ∀ (fs : List Frame) (n : Nat) (evs : List Event) (k : Nat) (r : Option Answer) (fuel : Nat),
      (∀ i < fs.length, failed (s.answer (n + i)) = false) →
      ∃ r', (s.running evs n ⟨op, k, d, r, fs.flatMap sendLines ++ ls⟩).runLines (fuel + 2 * fs.length) g =
        (s.running (evs ++ s.exchanges n (fs.map (txOf s.params.codes d))) (n + fs.length) ⟨op, k + 2 * fs.length, d, r', ls⟩).runLines
          fuel g
  | [], n, evs, k, r, fuel, _ => ⟨r, by simp [State.exchanges]⟩
  | f :: fs, n, evs, k, r, fuel, h => by
    obtain ⟨r', h'⟩ := sends_ok hg hl op d ls fs (n + 1) (evs ++ [exchange (txOf s.params.codes d f) (s.answer n)]) (k + 2)
      (some (s.answer n)) fuel fun i hi => by
        have := h (i + 1) (by simpa using hi); rwa [show n + 1 + i = n + (i + 1) by omega]
    refine ⟨r', ?_⟩
    rw [List.flatMap_cons, List.append_assoc, List.length_cons, show fuel + 2 * (fs.length + 1) = fuel + 2 * fs.length + 2 by omega,
      send_ok hg hl (by simpa using h 0 (by simp)), h']
    simp only [List.map_cons, State.exchanges, List.append_assoc, List.cons_append, List.nil_append]
    rw [show n + 1 + fs.length = n + (fs.length + 1) by omega, show k + 2 + 2 * fs.length = k + 2 * (fs.length + 1) by omega]

/-- Commands the `j`-th of which is the first to fail. -/
theorem sends_err {s : State} {g : Nat} (hg : s.cur = g) (hl : s.lockOpen g = true) (op : Instr) (d : Dev) (ls : List Line)
    {x : TransportErr} :
    ∀ (fs : List Frame) (j n : Nat) (evs : List Event) (k : Nat) (r : Option Answer) (fuel : Nat), j < fs.length →
      (∀ i < j, failed (s.answer (n + i)) = false) → s.answer (n + j) = .err x →
      (s.running evs n ⟨op, k, d, r, fs.flatMap sendLines ++ ls⟩).runLines (fuel + 2 * fs.length) g =
        s.returned op (evs ++ s.exchanges n ((fs.map (txOf s.params.codes d)).take (j + 1))) (.err (.transportError x)) (n + j + 1)
  | [], j, n, evs, k, r, fuel, hj, _, _ => absurd hj (by simp)
  | f :: fs, 0, n, evs, k, r, fuel, _, _, ha => by
    rw [List.flatMap_cons, List.append_assoc, List.length_cons,
      show fuel + 2 * (fs.length + 1) = fuel + 2 * fs.length + 2 by omega, send_err hg hl (by simpa using ha)]
    simp [State.exchanges]
  | f :: fs, j + 1, n, evs, k, r, fuel, hj, h, ha => by
    rw [List.flatMap_cons, List.append_assoc, List.length_cons,
      show fuel + 2 * (fs.length + 1) = fuel + 2 * fs.length + 2 by omega,
      send_ok hg hl (by simpa using h 0 (by simp)),
      sends_err hg hl op d ls fs j (n + 1) _ _ _ fuel (by simpa using hj)
        (fun i hi => by have := h (i + 1) (by omega); rwa [show n + 1 + i = n + (i + 1) by omega])
        (by rwa [show n + 1 + j = n + (j + 1) by omega])]
    simp only [List.map_cons, List.take_succ_cons, State.exchanges, List.append_assoc, List.cons_append, List.nil_append]
    rw [show n + 1 + j + 1 = n + (j + 1) + 1 by omega]

end Sys2Proof.Machine
end

