-- ==== Sys2Proof/Tests/Slice0.lean ====
section
/-! SUPPORT. Tests of the model, and one witness a statement with hypotheses. The expected values are those of
`95_test_vectors.md` and of the examples of the rules named; the words are written out from the formats of `30_encoding.md`. -/

namespace Sys2Proof.Tests

open Sys2Proof Sys2Proof.Machine

/-! ### Helpers -/

def z : Frame := ⟨0, 0, 0, 0⟩

/-- A reply with these bytes at 5, 6, 7 and 9, 10, 11, and 0 elsewhere. -/
def rx (x5 x6 x7 x9 x10 x11 : Byte) : ReadBuf := ⟨⟨z, ⟨0, x5, x6, x7⟩⟩, ⟨⟨0, x9, x10, x11⟩, z⟩⟩

def rx0 : Answer := .ok (rx 0 0 0 0 0 0)

/-- Device 0 answers this word, device 1 the word 0. -/
def dev0 (hi lo : Byte) : Answer := .ok (rx hi lo 0 0 0 0)

/-- A start state of the reference configuration: no operation in progress, every pin and the transport ready. -/
def start (ready power : Bool) (answers : List Answer) : State :=
  { State.reset with
    ready := ready, powerEnabled := power
    env := { Env.free with
      answers := ⟨answers, 0⟩, transportReady := ⟨[true], 0⟩, resetPin := ⟨[true], 0⟩, powerPin := ⟨[true], 0⟩
      deadlines := ⟨[1], 0⟩ } }

/-- The external events and the result of an outcome. -/
def seen : Host.Outcome State Fault Refusal → Option (List Event × Option Result)
  | .next s => some ((s.log.map Entry.event).filter Event.isPrimitive, (s.caller 0).result)
  | .fault _ | .refused _ => none

/-- The value a pure function gives. -/
def gives (i : Instr) : Option Value :=
  match exec i State.reset with
  | .next s => match (s.caller 0).result with
    | some (.ok v) => some v
    | _ => none
  | _ => none

/-- A single-device command's one event. -/
def sends (d : Dev) (f : Frame) (a : Answer) : Event := exchange (.phase (if d = 0 then ⟨f, z⟩ else ⟨z, f⟩)) a

def cbStatus : Buf := .read ⟨⟨⟨0xD0, 0, 0, 0⟩, ⟨0xD0, 0, 0, 0⟩⟩, ⟨z, z⟩⟩

/-- The reference values meet the constraints of R8 and D1. -/
theorem refCodes_legal : Config.refCodes.legal = true := by decide

/-- Another configuration D1 admits: GOTO is 0x62, NOP 0x80, and registers are written with base 0xC0. -/
def otherCodes : Codes := { Config.refCodes with opcGoto := 0x62, opcNop := 0x80, opcSetParam := 0xC0 }

/-! ### WellFormed: each check refuses an ill-formed term, and lets the largest legal one pass -/

theorem test_wf_acc : Instr.wellFormed (.frameSetParamAcc 0x1000) = false ∧ Instr.wellFormed (.frameSetParamAcc 0xFFF) = true := by
  decide
theorem test_wf_dec : Instr.wellFormed (.frameSetParamDec 0x1000) = false ∧ Instr.wellFormed (.frameSetParamDec 0xFFF) = true := by
  decide
theorem test_wf_max_speed :
    Instr.wellFormed (.frameSetParamMaxSpeed 0x400) = false ∧ Instr.wellFormed (.frameSetParamMaxSpeed 0x3FF) = true := by decide
theorem test_wf_ocd_th : Instr.wellFormed (.frameSetParamOcdTh 0) = false ∧ Instr.wellFormed (.frameSetParamOcdTh 16) = false ∧
    Instr.wellFormed (.frameSetParamOcdTh 15) = true := by decide
theorem test_wf_stall_th : Instr.wellFormed (.frameSetParamStallTh 0) = false ∧
    Instr.wellFormed (.frameSetParamStallTh 128) = false ∧ Instr.wellFormed (.frameSetParamStallTh 127) = true := by decide
theorem test_wf_step_mode :
    Instr.wellFormed (.frameSetParamStepMode 8) = false ∧ Instr.wellFormed (.frameSetParamStepMode 7) = true := by decide

/-! ### Decoding: every constructor by a word written out from its format -/

/-- NOARG (R86): opcode in bits 31:24, the rest 0. -/
theorem test_decode_noarg :
    decodeTableWord 32 0x00000000 = some .frameNop ∧ decodeTableWord 32 0x21000000 = some .frameGetParamAbsPos ∧
    decodeTableWord 32 0x70000000 = some .frameGoHome ∧ decodeTableWord 32 0xA0000000 = some .frameSoftHiz ∧
    decodeTableWord 32 0xA8000000 = some .frameHardHiz ∧ decodeTableWord 32 0xB0000000 = some .frameSoftStop ∧
    decodeTableWord 32 0xB8000000 = some .frameHardStop ∧ decodeTableWord 32 0xD0000000 = some .frameGetStatus ∧
    decodeTableWord 32 0xD8000000 = some .frameResetPos := by decide
/-- REG8 (R87): the value in bits 23:16 (`V-APPLY`). -/
theorem test_decode_reg8 :
    decodeTableWord 32 0x16040000 = some (.frameSetParamStepMode 4) ∧ decodeTableWord 32 0x09100000 = some (.frameSetParamKvalHold 16) ∧
    decodeTableWord 32 0x0A180000 = some (.frameSetParamKvalRun 24) ∧ decodeTableWord 32 0x0B180000 = some (.frameSetParamKvalAcc 24) ∧
    decodeTableWord 32 0x0C180000 = some (.frameSetParamKvalDec 24) ∧ decodeTableWord 32 0x13040000 = some (.frameSetParamOcdTh 4) ∧
    decodeTableWord 32 0x141A0000 = some (.frameSetParamStallTh 26) := by decide
/-- REG16 (R87): the value in bits 23:8 (`V-APPLY`). -/
theorem test_decode_reg16 :
    decodeTableWord 32 0x05006700 = some (.frameSetParamAcc 0x67) ∧ decodeTableWord 32 0x06006700 = some (.frameSetParamDec 0x67) ∧
    decodeTableWord 32 0x0703FF00 = some (.frameSetParamMaxSpeed 0x3FF) := by decide
/-- DIR20 (R83): `0101000 d 0000` and 20 bits. -/
theorem test_decode_dir20 :
    decodeTableWord 32 0x500003E8 = some (.frameRun0 1000) ∧ decodeTableWord 32 0x510FFFFF = some (.frameRun1 0xFFFFF) := by decide
/-- DIR22 and ABS22 (R84, R85): opcode, `00`, and 22 bits. -/
theorem test_decode_dir22 :
    decodeTableWord 32 0x40000064 = some (.frameMove0 100) ∧ decodeTableWord 32 0x410186A0 = some (.frameMove1 100000) ∧
    decodeTableWord 32 0x603FFFFF = some (.frameGoto 0x3FFFFF) ∧ decodeTableWord 32 0x683FFFFF = some (.frameGotoDir0 0x3FFFFF) ∧
    decodeTableWord 32 0x69012345 = some (.frameGotoDir1 0x12345) := by decide
/-- R92: an opcode outside R91 and a fixed bit that is 1 are no instruction; fewer than four bytes are none either. -/
theorem test_decode_rejects :
    decodeFrame Config.refCodes ⟨0x08, 0, 0, 0⟩ = .error (.unknownOpcode 0x08) ∧ decodeTableWord 32 0xC0000000 = none ∧
    decodeTableWord 32 0x50100000 = none ∧ decodeTableWord 32 0x40400000 = none ∧ decodeTableWord 32 0xD0000001 = none ∧
    decodeTableWord 32 0x16040100 = none ∧ decodeTableWord 32 0x05006701 = none ∧
    decodeBytes Config.refCodes [0x50, 0x00, 0x03] = .error .tooShort := by decide
theorem test_encode : encode Config.refCodes (.frameRun1 0xFFFFF) = some [0x51, 0x0F, 0xFF, 0xFF] ∧
    encode Config.refCodes (.frameSetParamMaxSpeed 0x348) = some [0x07, 0x03, 0x48, 0x00] ∧ encode Config.refCodes .init = none := by decide

/-! ### FrameCodec (V-CODEC, V-PARSE) -/

theorem test_pack_run :
    gives (.packRun 0 0 1000) = some (.frame ⟨0x50, 0x00, 0x03, 0xE8⟩) ∧
    gives (.packRun 1 3 0x12345678) = some (.frame ⟨0x51, 0x04, 0x56, 0x78⟩) := by decide
theorem test_pack_move :
    gives (.packMove 0 0 100) = some (.frame ⟨0x40, 0x00, 0x00, 0x64⟩) ∧
    gives (.packMove 1 2 0xFFFFFFFF) = some (.frame ⟨0x40, 0x3F, 0xFF, 0xFF⟩) := by decide
theorem test_pack_goto :
    gives (.packGoto 1 (BitVec.ofInt 32 (-2097151))) = some (.frame ⟨0x60, 0x20, 0x00, 0x01⟩) ∧
    gives (.packGoto 0 (BitVec.ofInt 32 (-2147483648))) = some (.frame ⟨0x60, 0x00, 0x00, 0x00⟩) := by decide
theorem test_pack_goto_dir :
    gives (.packGotoDir 1 0 (BitVec.ofInt 32 (-1))) = some (.frame ⟨0x68, 0x3F, 0xFF, 0xFF⟩) ∧
    gives (.packGotoDir 0 1 74565) = some (.frame ⟨0x69, 0x01, 0x23, 0x45⟩) := by decide
theorem test_pack_noarg : gives (.packNoarg 1 0xA8) = some (.frame ⟨0xA8, 0, 0, 0⟩) := by decide
theorem test_pack_get_status_opcodes :
    gives .packGetStatusOpcodes = some (.chainBuf ⟨⟨0xD0, 0, 0, 0⟩, ⟨0xD0, 0, 0, 0⟩⟩) := by decide
theorem test_pack_register_writes :
    gives (.packRegisterWrite1 0 0x14 0x1FF) = some (.frame ⟨0x14, 0xFF, 0x00, 0x00⟩) ∧
    gives (.packRegisterWrite2 1 0x05 0x12345) = some (.frame ⟨0x05, 0x23, 0x45, 0x00⟩) ∧
    gives (.packRegisterWrite3 1 0x01 0x123456) = some (.frame ⟨0x01, 0x12, 0x34, 0x56⟩) := by decide
theorem test_chain_single :
    gives (.chainSingle 1 ⟨0x51, 0x00, 0x03, 0xE8⟩) = some (.chainBuf ⟨z, ⟨0x51, 0x00, 0x03, 0xE8⟩⟩) := by decide
theorem test_with_clockout :
    gives (.withClockout ⟨⟨0xD0, 0, 0, 0⟩, ⟨0xD0, 0, 0, 0⟩⟩) =
      some (.readBuf ⟨⟨⟨0xD0, 0, 0, 0⟩, ⟨0xD0, 0, 0, 0⟩⟩, ⟨z, z⟩⟩) := by decide
theorem test_parse_status :
    gives (.parseStatus (rx 0x12 0x34 0 0x0E 0x02 0) 0) = some (.u16 0x1234) ∧
    gives (.parseStatus (rx 0x12 0x34 0 0x0E 0x02 0) 1) = some (.u16 0x0E02) := by decide
theorem test_parse_param22 :
    gives (.parseParam22 (rx 0xFF 0xFF 0xFF 0 0 0) 0) = some (.position (BitVec.ofInt 32 (-1))) ∧
    gives (.parseParam22 (rx 0 0 0 0xC0 0x00 0x01) 1) = some (.position 1) ∧
    gives (.parseParam22 (rx 0 0 0 0x20 0x00 0x01) 1) = some (.position (BitVec.ofInt 32 (-2097151))) := by decide

/-! ### RegisterEncoder (V-ENC) and StatusDecoder (V-DEC) -/

theorem test_encode_max_speed : gives (.encodeMaxSpeed 1) = some (.u16 4) ∧ gives (.encodeMaxSpeed 243) = some (.u16 1021) ∧
    gives (.encodeMaxSpeed 244) = some (.u16 1023) ∧ gives (.encodeMaxSpeed 4294967295) = some (.u16 1023) := by decide +kernel
theorem test_encode_acc_dec : gives (.encodeAccDec 7) = some (.u16 0) ∧ gives (.encodeAccDec 1500) = some (.u16 0x67) ∧
    gives (.encodeAccDec 59574) = some (.u16 4094) ∧ gives (.encodeAccDec 59575) = some (.u16 4095) := by decide +kernel
theorem test_encode_stall : gives (.encodeStallThresholdMa 0) = some (.u8 1) ∧ gives (.encodeStallThresholdMa 32) = some (.u8 2) ∧
    gives (.encodeStallThresholdMa 800) = some (.u8 26) ∧ gives (.encodeStallThresholdMa 4294967295) = some (.u8 127) := by decide
theorem test_encode_ocd : gives (.encodeOcdThresholdMa 562) = some (.u8 1) ∧ gives (.encodeOcdThresholdMa 563) = some (.u8 2) ∧
    gives (.encodeOcdThresholdMa 1500) = some (.u8 4) ∧ gives (.encodeOcdThresholdMa 5438) = some (.u8 15) := by decide +kernel
theorem test_encode_microstep : gives (.encodeMicrostepExponent 128) = some (.u8 7) ∧
    gives (.encodeMicrostepExponent 3) = some (.u8 4) ∧ gives (.encodeMicrostepExponent (BitVec.ofInt 32 (-16))) = some (.u8 4) := by
  decide
theorem test_decode_compact : gives (.decodeCompact 0) = some (.text "NO DATA") ∧
    gives (.decodeCompact 0x00A2) = some (.text "TH_SD UVLO BUSY") ∧ gives (.decodeCompact 0x8000) = some (.text "0x8000") := by decide
theorem test_decode_verbose : gives (.decodeVerbose 0) = some (.text "0x0000") ∧
    gives (.decodeVerbose 0x0EA2) = some (.text "0x0EA2 OCD TH_SD UVLO STEP_LOSS_A STEP_LOSS_B BUSY") := by decide

/-! ### Reads (V-READ) -/

theorem test_get_status_all :
    seen (exec .getStatusAll (start true false [.ok (rx 0x02 0 0 0 0x02 0)])) =
      some ([exchange cbStatus (.ok (rx 0x02 0 0 0 0x02 0))], some (.ok (.words 0x0200 0x0002))) := by decide
theorem test_get_status_all_error :
    seen (exec .getStatusAll (start true false [.err 7])) = some ([exchange cbStatus (.err 7)], some (.err (.transportError 7))) ∧
    seen (exec .getStatusAll (start false false [])) = some ([], some (.err .notReady)) := by decide
theorem test_is_busy :
    seen (exec (.isBusy 0) (start true false [dev0 0xFF 0xFD])) = some ([exchange cbStatus (dev0 0xFF 0xFD)], some (.ok (.bool false))) ∧
    seen (exec (.isBusy 2) (start true false [])) = some ([], some (.err .invalidArgument)) := by decide
theorem test_get_abs_pos :
    seen (exec (.getAbsPos 0) (start true false [.ok (rx 0 0 1 0 0 0)])) =
      some ([exchange (.read ⟨⟨⟨0x21, 0, 0, 0⟩, z⟩, ⟨z, z⟩⟩) (.ok (rx 0 0 1 0 0 0))], some (.ok (.position 1))) ∧
    seen (exec (.getAbsPos 5) (start false false [])) = some ([], some (.err .invalidArgument)) := by decide
/-- P5's first wait: two busy polls and a free one, `Deadline()` answering false. -/
theorem test_wait_until_idle :
    seen (exec (.waitWhileBusy 0 100 10) (start true true [dev0 0 2, rx0])) =
      some ([exchange cbStatus (dev0 0 2), .sleep 10, exchange cbStatus rx0], some (.ok .unit)) := by decide
/-- P5's second wait: timeout 0, one busy poll. -/
theorem test_wait_times_out :
    seen (exec (.waitWhileBusy 0 0 10) (start true true [dev0 0 2])) =
      some ([exchange cbStatus (dev0 0 2)], some (.err .timeout)) := by decide

/-! ### Motion commands (V-ADM) -/

theorem test_run :
    seen (exec (.run 0 0 1000) (start true true [rx0, rx0])) =
      some ([exchange cbStatus rx0, sends 0 ⟨0x50, 0x00, 0x03, 0xE8⟩ rx0], some (.ok .unit)) ∧
    seen (exec (.run 0 0 1001) (start true true [])) = some ([], some (.err .limitExceeded)) := by decide
/-- A latched fault blocks; a failed status read does not. -/
theorem test_run_fault_check :
    seen (exec (.run 0 0 10) (start true true [dev0 0x08 0])) = some ([exchange cbStatus (dev0 0x08 0)], some (.err .faultLatched)) ∧
    seen (exec (.run 0 0 10) (start true true [.err 3, rx0])) =
      some ([exchange cbStatus (.err 3), sends 0 ⟨0x50, 0, 0, 0x0A⟩ rx0], some (.ok .unit)) := by decide
theorem test_move :
    seen (exec (.move 1 1 100000) (start true true [rx0, rx0])) =
      some ([exchange cbStatus rx0, sends 1 ⟨0x41, 0x01, 0x86, 0xA0⟩ rx0], some (.ok .unit)) ∧
    seen (exec (.move 1 1 100001) (start true true [])) = some ([], some (.err .limitExceeded)) := by decide
theorem test_goto :
    seen (exec (.goto 1 (BitVec.ofInt 32 (-1))) (start true true [rx0])) =
      some ([sends 1 ⟨0x60, 0x3F, 0xFF, 0xFF⟩ rx0], some (.ok .unit)) ∧
    seen (exec (.goto 1 0) (start true false [])) = some ([], some (.err .powerDisabled)) := by decide
theorem test_goto_dir :
    seen (exec (.gotoDir 0 1 74565) (start true true [rx0])) = some ([sends 0 ⟨0x69, 0x01, 0x23, 0x45⟩ rx0], some (.ok .unit)) := by
  decide
theorem test_go_home :
    seen (exec (.goHome 1) (start true true [rx0])) = some ([sends 1 ⟨0x70, 0, 0, 0⟩ rx0], some (.ok .unit)) ∧
    seen (exec (.goHome 0) (start false false [])) = some ([], some (.err .notReady)) := by decide
theorem test_reset_pos :
    seen (exec (.resetPos 1) (start true false [rx0])) = some ([sends 1 ⟨0xD8, 0, 0, 0⟩ rx0], some (.ok .unit)) := by decide
theorem test_soft_stop :
    seen (exec (.softStop 0) (start true false [.err 1])) = some ([sends 0 ⟨0xB0, 0, 0, 0⟩ (.err 1)], some (.err (.transportError 1))) := by
  decide
theorem test_hard_stop :
    seen (exec (.hardStop 1) (start true false [rx0])) = some ([sends 1 ⟨0xB8, 0, 0, 0⟩ rx0], some (.ok .unit)) := by decide
theorem test_disable_outputs :
    seen (exec (.disableOutputs 0 true) (start true false [rx0])) = some ([sends 0 ⟨0xA8, 0, 0, 0⟩ rx0], some (.ok .unit)) ∧
    seen (exec (.disableOutputs 0 false) (start true false [rx0])) = some ([sends 0 ⟨0xA0, 0, 0, 0⟩ rx0], some (.ok .unit)) := by
  decide

/-! ### Initialisation, power, reset, configuration (V-CFG) -/

theorem test_init : seen (exec .init (start false false [])) = some ([], some (.ok .unit)) := by decide
theorem test_init_sets_ready :
    (match exec .init (start false false []) with | .next t => t.ready && !t.powerEnabled | _ => false) = true := by decide
/-- P6: the fourth write fails; the flag stays set. -/
theorem test_power_enable_interrupted :
    seen (exec .powerEnable (start true false [rx0, rx0, rx0, .err 9])) =
      some ([.powerPin true, sends 0 ⟨0x16, 4, 0, 0⟩ rx0, sends 0 ⟨0x09, 16, 0, 0⟩ rx0, sends 0 ⟨0x0A, 24, 0, 0⟩ rx0,
        sends 0 ⟨0x0B, 24, 0, 0⟩ (.err 9)], some (.err (.transportError 9))) := by decide
theorem test_power_enable_needs_ready : seen (exec .powerEnable (start false false [])) = some ([], some (.err .notReady)) := by decide
theorem test_power_disable : seen (exec .powerDisable (start true true [])) = some ([.powerPin false], some (.ok .unit)) := by decide
theorem test_reset :
    seen (exec .reset (start true true [])) =
      some ([.resetPin .low, .sleep 10, .resetPin .high, .sleep 5], some (.ok .unit)) := by decide
/-- `apply_model_params 1, REF` with write 7 failing: seven transceives, the seventh ACC = 0x0067. -/
theorem test_apply_stops :
    (seen (exec (.applyModelParams 1 Config.refModel) (start true false [rx0, rx0, rx0, rx0, rx0, rx0, .err 2]))).map
      (fun p => (p.1.length, p.1.getLast?, p.2)) =
      some (7, some (sends 1 ⟨0x05, 0x00, 0x67, 0x00⟩ (.err 2)), some (.err (.transportError 2))) := by decide
theorem test_set_active_model :
    seen (exec (.setActiveModel 1 1) (start false false [])) = some ([.persist 1 1], some (.ok .unit)) ∧
    seen (exec (.setActiveModel 0 2) (start false false [])) = some ([], some (.err .notFound)) := by decide
theorem test_set_active_model_by_name :
    seen (exec (.setActiveModelByName 0 "SMALL") (start false false [])) = some ([.persist 0 1], some (.ok .unit)) ∧
    seen (exec (.setActiveModelByName 0 "small") (start false false [])) = some ([], some (.err .notFound)) := by decide
theorem test_get_active_model :
    seen (exec (.getActiveModel 0) (start false false [])) = some ([], some (.ok (.model 0 Config.refModel))) ∧
    seen (exec (.getActiveModel 2) (start false false [])) = some ([], some (.err .notFound)) := by decide

/-! ### Steps -/

/-- The state after an outcome. -/
def after (o : Host.Outcome State Fault Refusal) : State :=
  match o with
  | .next s => s
  | .fault _ | .refused _ => State.reset

/-- A word placed for the fetch is the frame the very next step puts on the wire (log entry 15). -/
theorem test_step_fetches :
    (after (step (State.reset.withFetchWord 32 0x500003E8))).log.map Entry.tx = [some (.phase ⟨⟨0x50, 0x00, 0x03, 0xE8⟩, z⟩)] := by decide
theorem test_step_fetches_status :
    (after (step (State.reset.withFetchWord 32 0xD0000000))).log.map Entry.tx = [some cbStatus] := by decide
/-- A word that is no row of the opcode table is not transmitted (R92). -/
theorem test_step_refuses_unlisted :
    (match step (State.reset.withFetchWord 32 0xC0000000) with | .refused .unlistedFrame => true | _ => false) = true := by decide
/-- A caller with no call waits (R291). -/
theorem test_step_waits :
    (after (step (State.reset.withPicks [⟨3, false⟩]))).log = [] ∧ (after (step (State.reset.withPicks [⟨3, false⟩]))).cur = 3 := by decide

/-! ### Witnesses: states and operands that meet the hypotheses of the statements -/

/-- Ready and powered, no operation in progress. -/
def on : State := start true true [rx0, rx0]

/-- The same call in another configuration D1 admits. -/
theorem test_other_codes :
    seen (exec (.goto 1 (-1)) { on with params := { on.params with codes := otherCodes } }) =
      some ([exchange (.phase ⟨⟨0x80, 0, 0, 0⟩, ⟨0x62, 0x3F, 0xFF, 0xFF⟩⟩) rx0], some (.ok .unit)) := by decide
theorem test_step_fetches_other_codes :
    (after (step (State.withFetchWord { on with params := { on.params with codes := otherCodes } } 32 0x60000001))).log.map Entry.tx =
      [some (.phase ⟨⟨0x62, 0, 0, 1⟩, ⟨0x80, 0, 0, 0⟩⟩)] := by decide

/-- A RUN in progress at its transmit line. -/
def act : Activation := ⟨.run 1 0 100, 7, 1, some rx0, [.emit (packRun 0 0 100), .needOk, .returnUnit]⟩

def busyCaller : State := { on with callers := [⟨.active act, none, []⟩] }

/-- The reset sequence of caller 0 holds the lock; caller 1 is at a transmit line. -/
def resetting : State :=
  { on with lock := some 0, callers := [⟨.active ⟨.reset, 2, 0, none,
      [.driveReset .low, .sleep 10, .driveReset .high, .sleep 5, .releaseLock, .returnUnit]⟩, none, []⟩,
      ⟨.active act, none, []⟩] }

theorem witness_DecodeOfEncode : Config.refCodes.legal = true ∧
    encodeFrame Config.refCodes (.frameRun1 0xFFFFF) = some ⟨0x51, 0x0F, 0xFF, 0xFF⟩ := by decide
theorem witness_DecodeOfEncode_other : otherCodes.legal = true ∧ otherCodes ≠ Config.refCodes ∧
    encodeFrame otherCodes (.frameGoto 0x3FFFFF) = some ⟨0x62, 0x3F, 0xFF, 0xFF⟩ := by decide
theorem witness_EncodeOfDecode : decodeFrame Config.refCodes ⟨0x41, 0x3F, 0xFF, 0xFF⟩ = .ok (.frameMove1 0x3FFFFF) := by decide
theorem witness_OpcodeBytesAreTheTables : encodeFrame Config.refCodes .frameResetPos = some ⟨0xD8, 0, 0, 0⟩ := by decide
theorem busyCaller_canTransmit : busyCaller.canTransmit act := ⟨by decide, by decide, refCodes_legal⟩

theorem witness_RunFramesTransmit : busyCaller.canTransmit act := busyCaller_canTransmit
theorem witness_MoveFramesTransmit : busyCaller.canTransmit act := busyCaller_canTransmit
theorem witness_GotoFramesTransmit : busyCaller.canTransmit act := busyCaller_canTransmit
theorem witness_ArgumentFreeFramesTransmit : busyCaller.canTransmit act := busyCaller_canTransmit
theorem witness_RegisterFramesTransmit : busyCaller.canTransmit act := busyCaller_canTransmit
theorem witness_TwoPhaseFramesTransmit : busyCaller.canTransmit act := busyCaller_canTransmit
theorem witness_FramesWaitForTheLock_idle : Instr.isFrame .frameNop = true ∧ on.slot on.cur = .idle := by decide
theorem witness_FramesWaitForTheLock_held : Instr.isFrame (.frameRun0 100) = true ∧
    State.slot { resetting with cur := 1 } 1 = .active act ∧ State.lockOpen 1 { resetting with cur := 1 } = false := by decide
/-- Device 1, the reply's bytes 9 and 10 (the last field read). -/
theorem witness_ParseStatusRoundTrip :
    (rx 0 0 0 0xFF 0xFE 0).toBytes[4 * (1 + 1) + 1]? = some ((0xFFFE : U16).extractLsb' 8 8) ∧
    (rx 0 0 0 0xFF 0xFE 0).toBytes[4 * (1 + 1) + 2]? = some ((0xFFFE : U16).extractLsb' 0 8) := by decide
/-- The largest positive and the smallest negative position. -/
theorem witness_ParsePosition :
    (rx 0x1F 0xFF 0xFF 0x20 0 0).toBytes[4 * (0 + 1) + 1]? = some 0x1F ∧ (rx 0x1F 0xFF 0xFF 0x20 0 0).toBytes[4 * (0 + 1) + 2]? = some 0xFF ∧
    (rx 0x1F 0xFF 0xFF 0x20 0 0).toBytes[4 * (0 + 1) + 3]? = some 0xFF ∧ (rx 0x1F 0xFF 0xFF 0x20 0 0).toBytes[4 * (1 + 1) + 1]? = some 0x20 ∧
    (rx 0x1F 0xFF 0xFF 0x20 0 0).toBytes[4 * (1 + 1) + 2]? = some 0 ∧ (rx 0x1F 0xFF 0xFF 0x20 0 0).toBytes[4 * (1 + 1) + 3]? = some 0 ∧
    (0x1F * 65536 + 0xFF * 256 + 0xFF) % 2 ^ 22 = 2 ^ 21 - 1 ∧ (0x20 * 65536 + 0 * 256 + 0) % 2 ^ 22 = 2 ^ 21 := by decide
theorem witness_PureFunctionsIgnoreState : Instr.isPure (.packNoarg 0 0xB0) = true ∧ Instr.isPure (.decodeVerbose 0) = true := by decide
theorem witness_MicrostepExponents_powers : BitVec.toInt (1 : I32) = 2 ^ 0 ∧ BitVec.toInt (128 : I32) = 2 ^ 7 := by decide
theorem witness_MicrostepExponents_others : ∀ k ≤ 7, BitVec.toInt (256 : I32) ≠ 2 ^ k := by decide
/-- 1500 steps/s² is 103.09 codes of 14.55: the nearest integer is 103. -/
theorem witness_NoRoundingTies : (2 * (100 * 1500) ≤ 2 * 1455 * 103 + 1455 ∧ 2 * 1455 * 103 ≤ 2 * (100 * 1500) + 1455) ∧
    0 < 238 := by decide
theorem witness_EncodersMonotoneInRange : BitVec.toNat (0 : U32) ≤ BitVec.toNat (4294967295 : U32) := by decide
theorem witness_RearmWritesFitTheirFields :
    (⟨0x14, 1, 0, 0⟩ : Frame) ∈ paramFrames Config.refCodes { Config.refModel with stallThresholdMa := 0 } := by decide

theorem on_canCall : on.canCall := ⟨by decide, by decide, refCodes_legal⟩

theorem witness_StatusReads : on.canCall ∧ on.ready = true ∧ BitVec.toNat (1 : U32) = (1 : Dev).val := ⟨on_canCall, by decide⟩
theorem witness_PositionRead : on.canCall ∧ on.ready = true ∧ BitVec.toNat (1 : U32) = (1 : Dev).val := ⟨on_canCall, by decide⟩

/-- A busy poll, and the first answer after it. -/
def polls (a : Answer) : State := start true true [dev0 0 2, a]

theorem polls_canCall (a : Answer) : (polls a).canCall := ⟨rfl, rfl, refCodes_legal⟩

theorem witness_Wait_fails : (polls (.err 4)).canCall ∧ (polls (.err 4)).ready = true ∧ 1 ≤ (polls (.err 4)).deadlineFor 50 ∧
    (∀ i < 1, showsBusy 0 ((polls (.err 4)).answer i) = true) ∧ (polls (.err 4)).answer 1 = .err 4 := ⟨polls_canCall _, by decide⟩
theorem witness_Wait_idle : (polls rx0).canCall ∧ (polls rx0).ready = true ∧ 1 ≤ (polls rx0).deadlineFor 50 ∧
    (∀ i < 1, showsBusy 0 ((polls rx0).answer i) = true) ∧ (polls rx0).answer 1 = rx0 ∧ showsBusy 0 rx0 = false :=
  ⟨polls_canCall _, by decide⟩
theorem witness_Wait_times_out : (polls (dev0 0 2)).canCall ∧ (polls (dev0 0 2)).ready = true ∧ 1 = (polls (dev0 0 2)).deadlineFor 50 ∧
    0 = (polls (dev0 0 2)).deadlineFor 0 ∧ (∀ i < 1, showsBusy 0 ((polls (dev0 0 2)).answer i) = true) ∧
    showsBusy 0 ((polls (dev0 0 2)).answer 1) = true := ⟨polls_canCall _, by decide⟩

/-- `run` at the ceiling of REF, 1000, and one above it; a latched and an unlatched status. -/
theorem witness_RunAdmission : on.canCall ∧ on.ready = true ∧ on.powerEnabled = true ∧ on.speedCeiling 0 = 1000 ∧
    1000 < BitVec.toNat (1001 : U32) ∧ BitVec.toNat (1000 : U32) ≤ 1000 ∧ showsFault 0 (on.answer 0) = false :=
  ⟨on_canCall, by decide⟩
theorem witness_RunAdmission_fault : (start true true [dev0 0x02 0]).canCall ∧
    showsFault 0 ((start true true [dev0 0x02 0]).answer 0) = true := ⟨⟨rfl, rfl, refCodes_legal⟩, by decide⟩
theorem witness_MoveAdmission : on.canCall ∧ on.ready = true ∧ on.powerEnabled = true ∧
    on.params.maxMoveSteps.toNat < BitVec.toNat (100001 : U32) ∧ BitVec.toNat (100000 : U32) ≤ on.params.maxMoveSteps.toNat ∧
    showsFault 1 (on.answer 0) = false ∧ showsFault 0 (dev0 0x04 0) = true := ⟨on_canCall, by decide⟩
theorem witness_GotoCommands : on.canCall ∧ BitVec.toNat (1 : U32) = (1 : Dev).val ∧ on.ready = true ∧ on.powerEnabled = true :=
  ⟨on_canCall, by decide⟩
theorem witness_UngatedCommands : (start true false []).canCall ∧ BitVec.toNat (1 : U32) = (1 : Dev).val ∧
    (start true false []).ready = true := ⟨⟨rfl, rfl, refCodes_legal⟩, by decide⟩
/-- Each clause of the admission order: index 2, then not ready, then power off. -/
theorem witness_AdmissionOrder : devOperand (.goHome 2) = some 2 ∧ 2 ≤ BitVec.toNat (2 : U32) ∧ devOperand (.goHome 1) = some 1 ∧
    BitVec.toNat (1 : U32) < 2 ∧ (start false false []).ready = false ∧ (start true false []).ready = true ∧
    (start true false []).powerEnabled = false ∧ powerGated (.goHome 1) = true ∧ (start false false []).slot 0 = .idle := by decide
/-- The error clauses of StatusReads, PositionRead, RunAdmission, MoveAdmission, GotoCommands, UngatedCommands and
ApplyWritesTenRegisters: the first index out of range, the last in range on a chain not ready, and on one not powered. -/
theorem witness_prologueErrors : (start false false []).canCall ∧ (start false false []).ready = false ∧
    (start true false []).canCall ∧ (start true false []).ready = true ∧ (start true false []).powerEnabled = false ∧
    2 ≤ BitVec.toNat (2 : U32) ∧ BitVec.toNat (1 : U32) < 2 := ⟨⟨rfl, rfl, refCodes_legal⟩, rfl, ⟨rfl, rfl, refCodes_legal⟩, by decide⟩
/-- The default ceiling of `run`: an axis with no model. -/
theorem witness_RunAdmission_no_model : State.canCall { on with params := { on.params with catalog := [] } } ∧
    State.speedCeiling { on with params := { on.params with catalog := [] } } 0 = 1000 := ⟨on_canCall, by decide⟩
/-- Caller 2 is idle while caller 0's reset sequence holds the lock: the statements about an idle slot hold of it. -/
def lockedOut : State := { resetting with cur := 2 }

theorem witness_idle_while_locked : lockedOut.slot lockedOut.cur = .idle ∧ lockedOut.lockOpen lockedOut.cur = false ∧
    lockedOut.ready = true ∧ lockedOut.powerPinReady = true := by decide
theorem test_power_disable_takes_no_lock :
    (match exec .powerDisable lockedOut with | .next t => !t.powerEnabled && decide (t.lock = some 0) | _ => false) = true := by
  decide
theorem witness_AdmissionFailuresAreClean :
    Instr.isCall (.goHome 2) = true ∧ (after (exec (.goHome 2) on)).slot 0 = .idle ∧
    ((after (exec (.goHome 2) on)).caller 0).result = some (.err .invalidArgument) := by decide
theorem witness_AdmissionFailuresAreClean_fault :
    ((after (exec (.run 0 0 1) (start true true [dev0 0x02 0]))).caller 0).result = some (.err .faultLatched) := by decide
/-- A RUN, a MOVE and a GOTO that reach the wire. -/
theorem witness_OnlyAdmittedMotionReachesTheWire :
    (frameFor 0 (.phase ⟨⟨0x50, 0, 0, 1⟩, z⟩)).b0 ∈ [0x50#8, 0x51#8] ∧
    ((after (exec (.run 0 0 1) on)).log.drop on.log.length).map Entry.tx =
      [some cbStatus, some (.phase ⟨⟨0x50, 0, 0, 1⟩, z⟩), none] ∧
    ((after (exec (.move 0 1 1) on)).log.drop on.log.length).map Entry.tx =
      [some cbStatus, some (.phase ⟨⟨0x41, 0, 0, 1⟩, z⟩), none] ∧
    ((after (exec (.goHome 0) on)).log.drop on.log.length).map Entry.tx = [some (.phase ⟨⟨0x70, 0, 0, 0⟩, z⟩), none] := by decide

/-- The pins and the transport not ready. -/
def noPins : State :=
  { start true true [] with env := { (start true true []).env with
      transportReady := ⟨[false], 0⟩, resetPin := ⟨[false], 0⟩, powerPin := ⟨[false], 0⟩ } }

theorem witness_InitSetsReady : on.canCall ∧ noPins.canCall ∧ on.transportReady = true ∧ noPins.transportReady = false :=
  ⟨on_canCall, ⟨rfl, rfl, refCodes_legal⟩, by decide⟩
theorem witness_PowerEnableRearms : on.canCall ∧ (start false false []).ready = false ∧ on.ready = true ∧
    State.ready { on with params := { on.params with hasPowerPin := false } } = true ∧ on.params.hasPowerPin = true ∧
    noPins.powerPinReady = false ∧ on.powerPinReady = true ∧ (on.rearmBufs 0 ++ on.rearmBufs 1).length = 20 :=
  ⟨on_canCall, by decide⟩
/-- All 20 writes answered, and the last of them the first to fail. -/
theorem witness_PowerEnableRearms_writes :
    (∀ k < 20, failed ((start true true (List.replicate 20 rx0)).answer k) = false) ∧
    (∀ k < 19, failed ((start true true (List.replicate 19 rx0 ++ [.err 5])).answer k) = false) ∧
    (start true true (List.replicate 19 rx0 ++ [.err 5])).answer 19 = .err 5 := by decide
theorem witness_PowerDisableNeedsOnlyThePin : on.canCall ∧ noPins.canCall ∧ on.params.hasPowerPin = true ∧
    noPins.powerPinReady = false ∧ on.powerPinReady = true := ⟨on_canCall, ⟨rfl, rfl, refCodes_legal⟩, by decide⟩
theorem witness_DeviceResetPulsesThePin : on.canCall ∧ noPins.canCall ∧ on.resetPinReady = true ∧ noPins.resetPinReady = false :=
  ⟨on_canCall, ⟨rfl, rfl, refCodes_legal⟩, by decide⟩
theorem witness_ApplyWritesTenRegisters :
    (start true false (List.replicate 9 rx0 ++ [.err 5])).canCall ∧ (start true false (List.replicate 9 rx0 ++ [.err 5])).ready = true ∧
    (∀ k < 9, failed ((start true false (List.replicate 9 rx0 ++ [.err 5])).answer k) = false) ∧
    (start true false (List.replicate 9 rx0 ++ [.err 5])).answer 9 = .err 5 ∧
    (∀ k < 10, failed ((start true false (List.replicate 10 rx0)).answer k) = false) := ⟨⟨rfl, rfl, refCodes_legal⟩, by decide⟩
/-- The catalog port on the reference catalog (R268, R29): two entries, and two entries of one name, of which the least is found. -/
theorem test_catalog_port : catalogCount Config.refParams.catalog = 2#32 ∧
    lookupByIndex Config.refParams.catalog 1 = some Config.smallModel ∧ lookupByIndex Config.refParams.catalog 2 = none ∧
    lookupByName [Config.refModel, Config.smallModel, Config.smallModel] "SMALL" = some (1#32, Config.smallModel) ∧
    lookupByName Config.refParams.catalog "small" = none := by decide
/-- The pin event and the flag write are one step (log entry 21). -/
theorem test_pin_and_flag_in_one_step :
    let s : State := { start true false [] with
      callers := [⟨.active ⟨.powerEnable, 2, 0, none, .switchPower true :: .returnUnit :: []⟩, none, []⟩] }
    let t := after (step (s.withPicks [⟨0, false⟩]))
    t.powerEnabled = true ∧ t.log = [⟨0, .powerPin true⟩] := by decide
/-- The catalog has two entries: index 1 is its last and 2 is out of range; axis 2 is the first unknown axis. -/
theorem witness_SetActiveModelSelects : on.canCall ∧ 2 ≤ BitVec.toNat (2 : U32) ∧ on.params.catalog.length ≤ BitVec.toNat (2 : U32) ∧
    BitVec.toNat (1 : U32) < on.params.catalog.length ∧ on.params.legal = true ∧ catalogCount on.params.catalog ≤ 2#32 :=
  ⟨on_canCall, by decide⟩
theorem witness_SetActiveModelByNameSelectsLeast : on.canCall ∧ (∀ m ∈ on.params.catalog, m.name ≠ "small") ∧
    on.params.catalog[1]? = some Config.smallModel ∧ Config.smallModel.name = "SMALL" ∧
    (∀ j < 1, ∀ m', on.params.catalog[j]? = some m' → m'.name ≠ "SMALL") := by
  refine ⟨on_canCall, by decide, rfl, rfl, ?_⟩
  intro j hj m' h
  obtain rfl : j = 0 := by omega
  cases h
  decide
theorem witness_GetActiveModelReads : on.canCall ∧ 2 ≤ BitVec.toNat (2 : U32) ∧ BitVec.toNat (1 : U32) = (1 : Dev).val ∧
    on.params.catalog[on.axis1.toNat]? = some Config.refModel ∧
    (State.params { on with params := { on.params with catalog := [] } }).catalog.length ≤ on.axis1.toNat := ⟨on_canCall, by decide⟩

/-! ### Witnesses of the statements about steps -/

/-- The operation `act` is an admitted `run`. -/
theorem act_admitted (s : State) (h : s.params.codes = Config.refCodes) (hr : s.ready = true) : admitted s act := by
  refine ⟨[.checkDev 1, .checkReady, .checkPower, .checkSpeed 100, .tryReady 2, .emit ⟨0xD0, 0, 0, 0⟩, .testFault], ?_, ?_⟩
  · change some (Machine.runLines s.params.codes 1 0 100) = _
    rw [h]; decide
  · refine ⟨fun dev hd => ?_, fun _ => hr, fun n hn => ?_⟩
    · simp at hd; subst hd; decide
    · simp at hn

/-- The invariant holds while the reset sequence holds the lock and another caller waits to transmit. -/
theorem resetting_inv : resetting.Inv where
  params_legal := by decide
  power_ready := by decide
  slots_guarded := fun _ _ _ => .inl rfl
  axes_valid := by decide
  pending_valid := fun g a i h hi => by
    match g, h with
    | 0, h => cases h; simp at hi
    | 1, h => cases h; simp [act] at hi
    | _ + 2, h => cases h
  lock_disciplined := fun g a h => by
    match g, h with
    | 0, h => cases h; decide
    | 1, h => cases h; decide
    | _ + 2, h => cases h
  motion_admitted := fun g a h => by
    match g, h with
    | 0, h => cases h; exact fun f hf => by simp at hf
    | 1, h => cases h; exact act_admitted _ rfl rfl
    | _ + 2, h => cases h
  pin_agrees := .inl (by decide)
  pin_driven := .intro (fun g a h hp => by
    match g, h with
    | 0, h => cases h; simp [drivesPower] at hp
    | 1, h => cases h; simp [drivesPower, act] at hp
    | _ + 2, h => cases h) fun ⟨_, _, _, h, _⟩ => by cases h
  lock_active := fun h hh => by cases hh; decide

theorem witness_StepKeepsInvariant : resetting.Inv ∧
    (match step (resetting.withPicks [⟨0, false⟩]) with | .next _ => true | _ => false) = true := ⟨resetting_inv, by decide⟩
theorem witness_NoTransceiveInTheResetWindow : resetting.Inv ∧ resetting.lock ≠ none ∧
    (match step (resetting.withPicks [⟨1, false⟩]) with | .next _ => true | _ => false) = true := ⟨resetting_inv, by decide⟩
/-- Caller 2 has a pure function and an operation to call while caller 0 holds the lock. -/
def waiting (i : Instr) : State := { resetting with callers := resetting.callers ++ [⟨.idle, none, [i]⟩] }

/-- The pure function is evaluated; the operation has no step (log entry 20). -/
theorem witness_NoTransceiveInTheResetWindow_pure :
    ((after (step ((waiting (.packNoarg 0 5)).withPicks [⟨2, false⟩]))).caller 2).result = some (.ok (.frame ⟨5, 0, 0, 0⟩)) := by
  decide
theorem witness_NoTransceiveInTheResetWindow_waits (whole : Bool) : ((waiting .powerDisable).withPicks [⟨2, whole⟩]).lock ≠ some 2 ∧
    step ((waiting .powerDisable).withPicks [⟨2, whole⟩]) = .next ((waiting .powerDisable).withPicks [⟨2, whole⟩]).scheduled :=
  ⟨by simp [State.withPicks, waiting, resetting], rfl⟩

/-- The statements of idle slots hold with the lock held too: `power_disable` itself needs no lock (R224). -/
theorem witness_PowerDisableNeedsOnlyThePin_held :
    State.slot { resetting with cur := 2 } 2 = .idle ∧ State.lockOpen 2 { resetting with cur := 2 } = false ∧
    (after (exec .powerDisable { resetting with cur := 2 })).powerEnabled = false ∧ resetting.powerEnabled = true := by decide

theorem witness_LockIsReleased : resetting.Inv ∧ resetting.lock = some 0 ∧
    resetting.slot 0 = .active ⟨.reset, 2, 0, none,
      [.driveReset .low, .sleep 10, .driveReset .high, .sleep 5, .releaseLock, .returnUnit]⟩ := ⟨resetting_inv, by decide⟩

/-- Caller 0 is about to transmit, the lock free. -/
theorem busyCaller_inv : busyCaller.Inv where
  params_legal := by decide
  power_ready := by decide
  slots_guarded := fun _ _ _ => .inl rfl
  axes_valid := by decide
  pending_valid := fun g a i h hi => by
    match g, h with
    | 0, h => cases h; simp [act] at hi
    | _ + 1, h => cases h
  lock_disciplined := fun g a h => by
    match g, h with
    | 0, h => cases h; decide
    | _ + 1, h => cases h
  motion_admitted := fun g a h => by
    match g, h with
    | 0, h => cases h; exact act_admitted _ rfl rfl
    | _ + 1, h => cases h
  pin_agrees := .inl (by decide)
  pin_driven := .intro (fun g a h hp => by
    match g, h with
    | 0, h => cases h; simp [drivesPower, act] at hp
    | _ + 1, h => cases h) fun ⟨_, _, _, h, _⟩ => by cases h
  lock_active := fun h hh => by cases hh

theorem witness_TransceiveOnlyWhenReady : busyCaller.Inv ∧
    (after (step (busyCaller.withPicks [⟨0, false⟩]))).log.map Entry.tx = [some (.phase ⟨z, ⟨0x50, 0, 0, 100⟩⟩)] :=
  ⟨busyCaller_inv, by decide⟩
theorem witness_StepChangesOnlyItsCaller : (busyCaller.withPicks [⟨0, false⟩]).nextPick.caller = 0 ∧ busyCaller.ready = true ∧
    (match step (busyCaller.withPicks [⟨0, false⟩]) with | .next _ => true | _ => false) = true := by decide
theorem witness_LineMakesAtMostOnePrimitive : (busyCaller.withPicks [⟨0, false⟩]).nextPick.whole = false ∧
    (match step (busyCaller.withPicks [⟨0, false⟩]) with | .next _ => true | _ => false) = true := by decide
theorem witness_StateWrittenOnlyByItsOwners : (after (exec .powerDisable on)).powerEnabled ≠ on.powerEnabled ∧
    (after (exec .init (start false false []))).ready ≠ (start false false []).ready ∧
    (after (exec (.setActiveModel 1 1) on)).axis1 ≠ on.axis1 := by decide

/-- Caller 2 is idle and has a call to make. -/
def calling : State := { on with callers := [Caller.fresh, Caller.fresh, ⟨.idle, none, [.run 0 0 100]⟩] }

theorem witness_WholeCallIsItsLines : calling.params.codes.legal = true ∧ calling.slot 2 = .idle ∧
    ((after (step (calling.withPicks [⟨2, true⟩]))).caller 2).result = some (.ok .unit) := ⟨refCodes_legal, by decide⟩
theorem witness_HostCallsReturn : on.canCall ∧ Instr.isCall (.getActiveModel 1) = true ∧ on.activeModel 1 ≠ none :=
  ⟨on_canCall, by decide⟩
/-- The transmit clause, and the two clauses of an idle caller's next call. -/
theorem witness_StepRunsTheFetchedInstruction :
    decodeFrame Config.refCodes (packRun 0 0 100) = .ok (.frameRun0 100) ∧ (busyCaller.withPicks [⟨0, false⟩]).slot 0 = .active act ∧
    busyCaller.lockOpen 0 = true ∧ (calling.withPicks [⟨2, true⟩]).slot 2 = .idle ∧ (calling.caller 2).calls = [.run 0 0 100] ∧
    (calling.withPicks [⟨2, true⟩]).nextPick = ⟨2, true⟩ ∧ (calling.withPicks [⟨2, false⟩]).nextPick = ⟨2, false⟩ ∧
    program calling.params (.run 0 0 100) = some (Machine.runLines Config.refCodes 0 0 100) := by decide
/-- The waiting clauses: an operation in progress, a call to make, and a caller with no call. -/
theorem witness_StepRunsTheFetchedInstruction_waits :
    (resetting.withPicks [⟨1, false⟩]).slot 1 = .active act ∧ resetting.lockOpen 1 = false ∧
    (waiting .powerDisable).slot 2 = .idle ∧ ((waiting .powerDisable).caller 2).calls = [.powerDisable] ∧
    Instr.isCall .powerDisable = true ∧ (waiting .powerDisable).lockOpen 2 = false ∧
    Instr.isPure (.encodeAccDec 1500) = true ∧ (on.slot 0 = .idle ∧ (on.caller 0).calls = []) := by decide
theorem witness_ResetState : needsChain (.waitWhileBusy 1 50 5) = true ∧ needsChain .powerEnable = true ∧
    devOperand (.waitWhileBusy 1 50 5) = some 1 ∧ devOperand .powerEnable = none := by decide
theorem witness_PowerPinAgreesWithFlag : ((after (exec .powerDisable on)).caller 0).result = some (.ok .unit) ∧
    (after (exec .powerDisable on)).slot 0 = .idle := by decide
/-- A `power_enable` whose first write fails: it has driven the pin, set the flag and returned. -/
theorem witness_PowerPinAgreesWithFlag_enable :
    ((after (exec .powerEnable (start true false [.err 5]))).caller 0).result = some (.err (.transportError 5)) ∧
    (after (exec .powerEnable (start true false [.err 5]))).slot 0 = .idle ∧
    powerPinLevel (after (exec .powerEnable (start true false [.err 5]))).log = some true := by decide

/-- A `power_disable` that has driven the pin and cleared the flag, at its return. -/
def disabling : State :=
  { start true false [] with
    callers := [⟨.active ⟨.powerDisable, 2, 0, none, [.returnUnit]⟩, none, []⟩], log := [⟨0, .powerPin false⟩] }

theorem disabling_inv : disabling.Inv where
  params_legal := by decide
  power_ready := by decide
  slots_guarded := fun _ _ _ => .inl rfl
  axes_valid := by decide
  pending_valid := fun g a i h hi => by
    match g, h with
    | 0, h => cases h; simp at hi
    | _ + 1, h => cases h
  lock_disciplined := fun g a h => by
    match g, h with
    | 0, h => cases h; decide
    | _ + 1, h => cases h
  motion_admitted := fun g a h => by
    match g, h with
    | 0, h => cases h; exact fun f hf => by simp at hf
    | _ + 1, h => cases h
  pin_agrees := .inr (by decide)
  pin_driven := ⟨fun _ _ _ _ => .inr (by decide), fun _ => by decide⟩
  lock_active := fun h hh => by cases hh

/-- The step in which that call completes. -/
theorem witness_PowerPinAgreesWithFlag_step : disabling.Inv ∧
    (match step (disabling.withPicks [⟨0, false⟩]) with | .next _ => true | _ => false) = true ∧
    powerCompleted (after (step (disabling.withPicks [⟨0, false⟩]))) :=
  ⟨disabling_inv, by decide, 0, .powerDisable, .ok .unit, by decide, rfl, by decide⟩

end Sys2Proof.Tests
end

/-! PROOF. The decoder and the encoder agree on frames, and `exec` by the kind of instruction. -/

namespace Sys2Proof.Machine

/-! ### Decoded frames (`30_encoding.md` R91, R92) -/

theorem extract_top {n : Nat} (b : BitVec n) (x y : Byte) : (b ++ x ++ y).extractLsb' 16 n = b := by
  ext i hi; simp [BitVec.getLsbD_append]; grind

theorem extract_middle {n : Nat} (b : BitVec n) (x y : Byte) : (b ++ x ++ y).extractLsb' 8 8 = x := by
  ext i hi; simp [BitVec.getLsbD_append]; grind

/-- A byte whose top `n` bits are 0 is its low bits behind `n` zeros. -/
theorem eq_zero_append {n k : Nat} (b : Byte) (h : b.extractLsb' k n = 0#n) (hk : n + k = 8) :
    (0#n ++ b.extractLsb' 0 k).cast hk = b := by
  rw [← h]
  ext i hi
  simp only [BitVec.getElem_cast, BitVec.getElem_append, BitVec.getElem_extractLsb']
  split
  · simp [hi]
  · rw [← BitVec.getLsbD_eq_getElem]; congr 1; omega

/-- A row reads an instruction only from the frame that the instruction encodes to. -/
def FaithfulRow (c : Codes) (r : OpcodeRow) : Prop :=
  ∀ f i, r.opcode = f.b0 → r.read f = .ok i → encodeFrame c i = some f

section
variable {c : Codes} {b : Byte}

theorem faithful_noarg {j : Instr} (hj : encodeFrame c j = some (fmtNoarg b)) :
    FaithfulRow c ⟨b, fun f => decodeNoarg f j⟩ := by
  rintro ⟨b0, b1, b2, b3⟩ i rfl h
  simp only [decodeNoarg] at h
  split at h <;> cases h
  next hz => obtain ⟨rfl, rfl, rfl⟩ := hz; exact hj

theorem faithful_reg8 {mk : BitVec 8 → Instr} (hm : ∀ v, encodeFrame c (mk v) = some (fmtReg8 b v)) :
    FaithfulRow c ⟨b, fun f => decodeReg8 f mk⟩ := by
  rintro ⟨b0, b1, b2, b3⟩ i rfl h
  simp only [decodeReg8] at h
  split at h <;> cases h
  next hz => obtain ⟨rfl, rfl⟩ := hz; exact hm b1

theorem faithful_reg16 {mk : BitVec 16 → Instr} (hm : ∀ v, encodeFrame c (mk v) = some (fmtReg16 b v)) :
    FaithfulRow c ⟨b, fun f => decodeReg16 f mk⟩ := by
  rintro ⟨b0, b1, b2, b3⟩ i rfl h
  simp only [decodeReg16] at h
  split at h <;> cases h
  next hz =>
    obtain rfl := hz
    rw [hm, fmtReg16, BitVec.extractLsb'_append_eq_left, BitVec.extractLsb'_append_eq_right]

theorem faithful_dir20 {mk : BitVec 20 → Instr} (hm : ∀ v, encodeFrame c (mk v) = some (fmtDir20 b v)) :
    FaithfulRow c ⟨b, fun f => decodeDir20 f mk⟩ := by
  rintro ⟨b0, b1, b2, b3⟩ i rfl h
  simp only [decodeDir20] at h
  split at h <;> cases h
  next hz =>
    have hb : 0#4 ++ b1.extractLsb' 0 4 = b1 := eq_zero_append b1 hz rfl
    rw [hm, fmtDir20, extract_top, extract_middle, BitVec.extractLsb'_append_eq_right, hb]

theorem faithful_dir22 {mk : BitVec 22 → Instr} (hm : ∀ v, encodeFrame c (mk v) = some (fmtDir22 b v)) :
    FaithfulRow c ⟨b, fun f => decodeDir22 f mk⟩ := by
  rintro ⟨b0, b1, b2, b3⟩ i rfl h
  simp only [decodeDir22] at h
  split at h <;> cases h
  next hz =>
    have hb : 0#2 ++ b1.extractLsb' 0 6 = b1 := eq_zero_append b1 hz rfl
    rw [hm, fmtDir22, extract_top, extract_middle, BitVec.extractLsb'_append_eq_right, hb]

end

theorem opcodeMap_faithful (c : Codes) : ∀ r ∈ opcodeMap c, FaithfulRow c r := by
  simp only [opcodeMap, List.forall_mem_cons]
  exact ⟨faithful_noarg rfl, faithful_noarg rfl, faithful_noarg rfl,
    faithful_reg16 fun _ => rfl, faithful_reg16 fun _ => rfl, faithful_reg16 fun _ => rfl,
    faithful_reg8 fun _ => rfl, faithful_reg8 fun _ => rfl, faithful_reg8 fun _ => rfl, faithful_reg8 fun _ => rfl,
    faithful_reg8 fun _ => rfl, faithful_reg8 fun _ => rfl, faithful_reg8 fun _ => rfl,
    faithful_dir22 fun _ => rfl, faithful_dir22 fun _ => rfl, faithful_dir20 fun _ => rfl, faithful_dir20 fun _ => rfl,
    faithful_dir22 fun _ => rfl, faithful_dir22 fun _ => rfl, faithful_dir22 fun _ => rfl,
    faithful_noarg rfl, faithful_noarg rfl, faithful_noarg rfl, faithful_noarg rfl, faithful_noarg rfl, faithful_noarg rfl,
    List.forall_mem_nil _⟩

/-- A frame that decodes is the encoding of what it decodes to, in every configuration. -/
theorem encodeFrame_of_decodeFrame {c : Codes} {f : Frame} {i : Instr} (h : decodeFrame c f = .ok i) :
    encodeFrame c i = some f := by
  unfold decodeFrame at h
  split at h
  next r hr =>
    exact opcodeMap_faithful c r (List.mem_of_find?_eq_some hr) f i (by simpa using List.find?_some hr) h
  next => cases h

theorem codes_legal {p : Params} (h : p.legal = true) : p.codes.legal = true := by
  simp only [Params.legal, Bool.and_eq_true] at h
  exact h.1.1.1.1

/-- In a legal configuration every frame that an instruction encodes to decodes to it. -/
theorem decodeFrame_of_encodeFrame {c : Codes} {f : Frame} {i : Instr} (hl : c.legal = true) (h : encodeFrame c i = some f) :
    decodeFrame c f = .ok i := by
  cases i with
  | frameNop => exact Laws.RoundTrip.frameNop c f hl h
  | frameSetParamAcc v => exact Laws.RoundTrip.frameSetParamAcc v c f hl h
  | frameSetParamDec v => exact Laws.RoundTrip.frameSetParamDec v c f hl h
  | frameSetParamMaxSpeed v => exact Laws.RoundTrip.frameSetParamMaxSpeed v c f hl h
  | frameSetParamKvalHold v => exact Laws.RoundTrip.frameSetParamKvalHold v c f hl h
  | frameSetParamKvalRun v => exact Laws.RoundTrip.frameSetParamKvalRun v c f hl h
  | frameSetParamKvalAcc v => exact Laws.RoundTrip.frameSetParamKvalAcc v c f hl h
  | frameSetParamKvalDec v => exact Laws.RoundTrip.frameSetParamKvalDec v c f hl h
  | frameSetParamOcdTh v => exact Laws.RoundTrip.frameSetParamOcdTh v c f hl h
  | frameSetParamStallTh v => exact Laws.RoundTrip.frameSetParamStallTh v c f hl h
  | frameSetParamStepMode v => exact Laws.RoundTrip.frameSetParamStepMode v c f hl h
  | frameGetParamAbsPos => exact Laws.RoundTrip.frameGetParamAbsPos c f hl h
  | frameMove0 v => exact Laws.RoundTrip.frameMove0 v c f hl h
  | frameMove1 v => exact Laws.RoundTrip.frameMove1 v c f hl h
  | frameRun0 v => exact Laws.RoundTrip.frameRun0 v c f hl h
  | frameRun1 v => exact Laws.RoundTrip.frameRun1 v c f hl h
  | frameGoto v => exact Laws.RoundTrip.frameGoto v c f hl h
  | frameGotoDir0 v => exact Laws.RoundTrip.frameGotoDir0 v c f hl h
  | frameGotoDir1 v => exact Laws.RoundTrip.frameGotoDir1 v c f hl h
  | frameGoHome => exact Laws.RoundTrip.frameGoHome c f hl h
  | frameSoftHiz => exact Laws.RoundTrip.frameSoftHiz c f hl h
  | frameHardHiz => exact Laws.RoundTrip.frameHardHiz c f hl h
  | frameSoftStop => exact Laws.RoundTrip.frameSoftStop c f hl h
  | frameHardStop => exact Laws.RoundTrip.frameHardStop c f hl h
  | frameGetStatus => exact Laws.RoundTrip.frameGetStatus c f hl h
  | frameResetPos => exact Laws.RoundTrip.frameResetPos c f hl h
  | _ => cases h

/-! ### What `exec` does, by the kind of instruction -/

/-- A wire frame is the transmit line of the operation in progress (R91). -/
theorem exec_of_encodeFrame {s : State} {i : Instr} {f : Frame} (h : encodeFrame s.params.codes i = some f) :
    exec i s = emitFrame f s := by
  cases i <;> cases h <;> rfl

/-- An instruction with neither lines nor a frame is a pure function: it gives the current caller a value (D39). -/
theorem exec_of_pure {s : State} {i : Instr} (hp : program s.params i = none) (he : encodeFrame s.params.codes i = none) :
    ∃ v, exec i s = .next (s.deliver v) := by
  cases i <;> cases hp <;> cases he <;> exact ⟨_, rfl⟩

/-- A host operation is the call of its lines, but `get_active_model` is refused where its axis has no record (I8). -/
theorem exec_of_program {s : State} {i : Instr} {ls : List Line} (h : program s.params i = some ls) :
    (exec i s = call i ls s ∧ ∀ axis, i = .getActiveModel axis → modelMissing axis s = false) ∨
      exec i s = .refused .noCatalogEntry := by
  cases i
  case getActiveModel axis =>
    cases h
    cases hm : modelMissing axis s with
    | true => exact .inr (if_pos hm)
    | false => exact .inl ⟨if_neg (by simp [hm]), fun _ he => by cases he; exact hm⟩
  all_goals cases h <;> exact .inl ⟨rfl, nofun⟩

/-- Which instructions run in a slot does not depend on the parameters. -/
theorem program_isSome (p : Params) (i : Instr) : (program p i).isSome = i.isCall := by
  cases i <;> rfl

end Sys2Proof.Machine

/-! PROOF. What one line of an operation can do, said once. -/

namespace Sys2Proof.Machine

/-! ### What one line can do

A line of the operation in progress leaves the state, ends the operation, or goes on. `Line.write` and `Line.next` say what a
line that goes on does to the state and to its operation, `Line.passes` what its test has found, `Line.endsWith` which results
a line can end its operation with. `lineStep_result` says that there is nothing else. -/

/-- What a line that goes on writes, besides its caller's slot and the draws used up. -/
def Line.write (g : Nat) (a : Activation) (s : State) : Line → State
  | .acquireLock => { s with lock := some g }
  | .releaseLock => { s with lock := none }
  | .emit f => s.record g (exchange (txOf s.params.codes a.dev f) (s.answer 0))
  | .sleep ms => s.record g (.sleep ms)
  | .driveReset level => s.record g (.resetPin level)
  | .setReady => { s with ready := true }
  | .switchPower on => { s.record g (.powerPin on) with powerEnabled := on }
  | .setAxis index => s.setAxisModel a.dev index
  | .persist index => s.record g (.persist a.dev index)
  | _ => s

/-- The device or axis of the operation after the line. -/
def Line.target (d : Dev) : Line → Dev
  | .checkDev i | .checkAxis i => if h : i.toNat < 2 then ⟨i.toNat, h⟩ else d
  | _ => d

/-- The lines after one that goes on: those after it in the list, with what it inlines before them. -/
def Line.following (s : State) (ls : List Line) : Line → List Line
  | .tryReady skip => if s.ready then ls else ls.drop skip
  | .armDeadline dev timeoutMs pollMs => pollLines s.params.codes dev pollMs (s.deadlineFor timeoutMs) ++ ls
  | .testPoll dev pollMs left => .testDeadline dev pollMs left :: ls
  | .testDeadline dev pollMs left => .sleep pollMs.toNat :: (pollLines s.params.codes dev pollMs (left - 1) ++ ls)
  | .rearm axis => match s.activeModel axis with
    | some m => applyLines s.params.codes (BitVec.ofNat 32 axis.val) m ++ ls
    | none => ls
  | .findIndex index => .setAxis index :: .persist index :: ls
  | .findName name => match lookupByName s.params.catalog name with
    | some (i, _) => .setAxis i :: .persist i :: ls
    | none => ls
  | _ => ls

/-- The operation after a line that goes on. -/
def Line.next (s : State) (a : Activation) (ls : List Line) (l : Line) : Activation :=
  ⟨a.op, a.k + 1, l.target a.dev, match l with | .emit _ => some (s.answer 0) | _ => a.reply, l.following s ls⟩

/-- What the test of a line that goes on has found. -/
def Line.passes (g : Nat) (s : State) : Line → Prop
  | .checkDev i | .checkAxis i => i.toNat < 2
  | .checkReady => s.ready = true
  | .checkSteps steps => steps.toNat ≤ s.params.maxMoveSteps.toNat
  | .acquireLock | .emit _ => s.lockOpen g = true
  | .findIndex index => (lookupByIndex s.params.catalog index).isSome = true
  | .findName name => (lookupByName s.params.catalog name).isSome = true
  | .returnStatus | .returnBusy | .returnPosition | .returnModel | .returnUnit => False
  | _ => True

/-- The line can end its operation with this result. -/
def Line.endsWith (r : Result) : Line → Prop
  | .checkReady | .checkPowerPin => r = .err .notReady
  | .tryReady _ | .acquireLock | .releaseLock | .emit _ | .armDeadline .. | .sleep _ | .driveReset _ | .setReady
  | .switchPower _ | .rearm _ | .setAxis _ | .persist _ => False
  | _ => True

/-- What one line of caller `g` can lead to from `s`. -/
inductive LineResult (g : Nat) (s : State) : State → Prop
  /-- The slot is idle, or the line waits or has no meaning. -/
  | stays : LineResult g s s
  /-- An operation with no line left ends. -/
  | drained (a : Activation) (hs : s.slot g = .active a) (hr : a.rest = []) : LineResult g s (s.setSlot g .idle)
  | ends (a : Activation) (l : Line) (ls : List Line) (r : Result) (env : Env) (hs : s.slot g = .active a)
      (hr : a.rest = l :: ls) (hl : l.endsWith r) : LineResult g s (State.finish g a.op r { s with env := env })
  | moves (a : Activation) (l : Line) (ls : List Line) (env : Env) (hs : s.slot g = .active a) (hr : a.rest = l :: ls)
      (hl : l.passes g s) : LineResult g s (State.setSlot g (.active (l.next s a ls)) { l.write g a s with env := env })

theorem setSlot_setSlot (g : Nat) (x y : Slot) (s : State) : (s.setSlot g x).setSlot g y = s.setSlot g y := by
  unfold State.setSlot
  rw [caller_setCaller, if_pos rfl]
  simp [State.setCaller]

section
variable {g : Nat} {s t : State} {op : Instr} {k : Nat} {d : Dev} {r r' : Option Answer} {l : Line} {ls : List Line}

/-- A line that goes on to the next: `t` is the state it advances, with the operation's answer `r'`. -/
theorem moves_of_advance (hs : s.slot g = .active ⟨op, k, d, r, l :: ls⟩) (hl : l.passes g s) (env : Env)
    (ht : t.advance g = State.setSlot g (.active (l.next s ⟨op, k, d, r, l :: ls⟩ ls))
      { l.write g ⟨op, k, d, r, l :: ls⟩ s with env := env }) :
    LineResult g s (t.advance g) := by
  rw [ht]; exact .moves _ l ls env hs rfl hl

/-- The same of a state that differs from `s` outside the callers. -/
theorem moves_of_advance_same (hs : s.slot g = .active ⟨op, k, d, r, l :: ls⟩) (hl : l.passes g s)
    (hn : l.next s ⟨op, k, d, r, l :: ls⟩ ls = ⟨op, k + 1, d, r, ls⟩)
    (hc : t.callers = s.callers) (ht : t = { l.write g ⟨op, k, d, r, l :: ls⟩ s with env := t.env }) :
    LineResult g s (t.advance g) := by
  refine moves_of_advance hs hl t.env ?_
  rw [advance_of_active ((slot_congr hc g).trans hs), hn, ← ht]; rfl

theorem runLine_result (hs : s.slot g = .active ⟨op, k, d, r, l :: ls⟩) :
    LineResult g s (runLine g ⟨op, k, d, r, l :: ls⟩ l s) := by
  have ends {res : Result} (env : Env) (hl : l.endsWith res) : LineResult g s (State.finish g op res { s with env := env }) :=
    .ends _ l ls res env hs rfl hl
  have moves (env : Env) (hl : l.passes g s) {t : State} {b : Activation} (hb : b = l.next s ⟨op, k, d, r, l :: ls⟩ ls)
      (ht : t = { l.write g ⟨op, k, d, r, l :: ls⟩ s with env := env }) : LineResult g s (t.setSlot g (.active b)) := by
    rw [hb, ht]; exact .moves _ l ls env hs rfl hl
  have reads (hl : ∀ res, l.endsWith res) {f : ReadBuf → State} (hf : ∀ rx, LineResult g s (f rx)) :
      LineResult g s (s.onReply g ⟨op, k, d, r, l :: ls⟩ f) := by
    match r with
    | none => exact .stays
    | some (.err e) => exact ends s.env (hl _)
    | some (.ok rx) => exact hf rx
  cases l with
  | checkDev i =>
    simp only [runLine]; split
    next h => exact moves s.env h (by simp [Line.next, Line.target, Line.following, show i.toNat < 2 from h]) rfl
    next => exact ends s.env trivial
  | checkReady =>
    simp only [runLine]; split
    next h => exact moves_of_advance_same hs h rfl rfl rfl
    next => exact ends s.env rfl
  | checkPower =>
    simp only [runLine]; split
    next h => exact moves_of_advance_same hs trivial rfl rfl rfl
    next => exact ends s.env trivial
  | checkSpeed speed =>
    simp only [runLine]; split
    next => exact ends s.env trivial
    next h => exact moves_of_advance_same hs trivial rfl rfl rfl
  | checkSteps steps =>
    simp only [runLine]; split
    next => exact ends s.env trivial
    next h => exact moves_of_advance_same hs (Nat.not_lt.mp h) rfl rfl rfl
  | checkAxis i =>
    simp only [runLine]; split
    next h => exact moves s.env h (by simp [Line.next, Line.target, Line.following, show i.toNat < 2 from h]) rfl
    next => exact ends s.env trivial
  | checkTransport =>
    simp only [runLine]; split
    next => exact moves_of_advance_same hs trivial rfl rfl rfl
    next => exact ends _ trivial
  | checkPowerPin =>
    simp only [runLine]; split
    next => exact ends s.env rfl
    next =>
      split
      next => exact moves_of_advance_same hs trivial rfl rfl rfl
      next => exact ends _ rfl
  | checkResetPin =>
    simp only [runLine]; split
    next => exact moves_of_advance_same hs trivial rfl rfl rfl
    next => exact ends _ trivial
  | tryReady skip =>
    simp only [runLine]; split
    next h => exact moves_of_advance_same hs trivial (by simp [Line.next, Line.target, Line.following, h]) rfl rfl
    next h => exact moves s.env trivial (by simp [Line.next, Line.target, Line.following, h]) rfl
  | acquireLock =>
    simp only [runLine]; split
    next h => exact moves_of_advance_same hs h rfl rfl rfl
    next => exact .stays
  | releaseLock => exact moves_of_advance_same hs trivial rfl rfl rfl
  | emit f =>
    simp only [runLine]; split
    next h =>
      refine moves_of_advance hs h (s.takeAnswers 1).env ?_
      rw [advance_of_active (a := ⟨op, k, d, some (s.answer 0), .emit f :: ls⟩) (by simp), State.transmit, setSlot_setSlot]
      rfl
    next => exact .stays
  | needOk => exact reads (fun _ => trivial) fun _ => moves_of_advance_same hs trivial rfl rfl rfl
  | testFault =>
    simp only [runLine]; split
    next => exact .stays
    next =>
      split
      next => exact ends s.env trivial
      next => exact moves_of_advance_same hs trivial rfl rfl rfl
    next => exact moves_of_advance_same hs trivial rfl rfl rfl
  | returnStatus => exact reads (fun _ => trivial) fun _ => ends s.env trivial
  | returnBusy => exact reads (fun _ => trivial) fun _ => ends s.env trivial
  | returnPosition => exact reads (fun _ => trivial) fun _ => ends s.env trivial
  | armDeadline dev timeoutMs pollMs =>
    simp only [runLine]; split
    next h => exact moves s.env trivial (by simp [Line.next, Line.target, Line.following, State.deadlineFor, h]) rfl
    next h => exact moves _ trivial (by simp [Line.next, Line.target, Line.following, State.deadlineFor, h]) rfl
  | testPoll dev pollMs left =>
    refine reads (fun _ => trivial) fun _ => ?_
    split
    next => exact moves s.env trivial rfl rfl
    next => exact ends s.env trivial
  | testDeadline dev pollMs left =>
    cases left with
    | zero => exact ends s.env trivial
    | succ left => exact moves s.env trivial rfl rfl
  | sleep ms => exact moves_of_advance_same hs trivial rfl rfl rfl
  | driveReset level => exact moves_of_advance_same hs trivial rfl rfl rfl
  | setReady => exact moves_of_advance_same hs trivial rfl rfl rfl
  | switchPower on => exact moves_of_advance_same hs trivial rfl rfl rfl
  | rearm axis =>
    simp only [runLine]; split
    next m h => exact moves s.env trivial (by simp [Line.next, Line.target, Line.following, h]) rfl
    next h => exact moves_of_advance_same hs trivial (by simp [Line.next, Line.target, Line.following, h]) rfl rfl
  | findIndex index =>
    simp only [runLine]; split
    next m h => exact moves s.env (Option.isSome_of_eq_some h) rfl rfl
    next => exact ends s.env trivial
  | findName name =>
    simp only [runLine]; split
    next i m h =>
      exact moves s.env (Option.isSome_of_eq_some h) (by simp [Line.next, Line.target, Line.following, h]) rfl
    next => exact ends s.env trivial
  | setAxis index =>
    have hw : s.setAxisModel d index = { s.setAxisModel d index with env := (s.setAxisModel d index).env } := rfl
    exact moves_of_advance_same hs trivial rfl (setAxisModel_callers ..) hw
  | persist index => exact moves_of_advance_same hs trivial rfl rfl rfl
  | returnModel =>
    simp only [runLine]; split
    next => exact ends s.env trivial
    next => exact .stays
  | returnUnit => exact ends s.env trivial

end

/-- A step of one line does nothing else than `LineResult` lists. -/
theorem lineStep_result (g : Nat) (s : State) : LineResult g s (s.lineStep g) := by
  unfold State.lineStep
  split
  next => exact .stays
  next a hs =>
    obtain ⟨op, k, d, r, rest⟩ := a
    cases rest with
    | nil => exact .drained _ hs rfl
    | cons l ls => exact runLine_result hs

end Sys2Proof.Machine

/-! PROOF. What an instruction and a step can do, said once, and how a run of lines inherits what each line keeps. -/

namespace Sys2Proof.Machine

/-! ### What an instruction and a step can do -/

/-- What `exec` can lead to. -/
inductive ExecResult (i : Instr) (s : State) : State → Prop
  | evaluates (v : Value) (hp : program s.params i = none) : ExecResult i s (s.deliver v)
  | waits (a : Activation) (hs : s.slot s.cur = .active a) : ExecResult i s s
  | transmits (a : Activation) (f : Frame) (hs : s.slot s.cur = .active a) (hl : s.lockOpen s.cur = true) :
    ExecResult i s (s.transmit s.cur a f)
  | runs (ls : List Line) (hs : s.slot s.cur = .idle) (hp : program s.params i = some ls)
      (hm : ∀ axis, i = .getActiveModel axis → modelMissing axis s = false) :
    ExecResult i s ((s.beginCall s.cur i ls).runLines s.callFuel s.cur)

theorem emitFrame_active {s : State} {a : Activation} (hs : s.slot s.cur = .active a) (f : Frame) :
    emitFrame f s = .next (if s.lockOpen s.cur then s.transmit s.cur a f else s) := by
  simp only [emitFrame, hs]

theorem emitFrame_idle {s : State} (hs : s.slot s.cur = .idle) (f : Frame) :
    emitFrame f s = .refused .frameOutsideOperation := by
  simp only [emitFrame, hs]

theorem call_begins {s : State} (hs : s.slot s.cur = .idle) (i : Instr) (ls : List Line) :
    call i ls s = .next ((s.beginCall s.cur i ls).runLines s.callFuel s.cur) := by
  simp only [call, hs]

theorem call_busy {s : State} {a : Activation} (hs : s.slot s.cur = .active a) (i : Instr) (ls : List Line) :
    call i ls s = .refused .callerBusy := by
  simp only [call, hs]

theorem exec_result {i : Instr} {s t : State} (h : exec i s = .next t) : ExecResult i s t := by
  rcases hp : program s.params i with _ | ls
  · rcases he : encodeFrame s.params.codes i with _ | f
    · obtain ⟨v, hv⟩ := exec_of_pure hp he
      rw [hv] at h; cases h; exact .evaluates v hp
    · rw [exec_of_encodeFrame he] at h
      rcases hs : s.slot s.cur with _ | a
      · rw [emitFrame_idle hs] at h; cases h
      · rw [emitFrame_active hs] at h
        split at h <;> cases h
        next hl => exact .transmits a f hs hl
        next => exact .waits a hs
  · rcases exec_of_program hp with ⟨he, hm⟩ | he
    · rw [he] at h
      rcases hs : s.slot s.cur with _ | a
      · rw [call_begins hs] at h; cases h; exact .runs ls hs hp hm
      · rw [call_busy hs] at h; cases h
    · rw [he] at h; cases h

/-- From an idle slot an instruction is a pure function or the run of a host operation. -/
theorem exec_idle {i : Instr} {s t : State} (hs : s.slot s.cur = .idle) (h : exec i s = .next t) :
    (program s.params i = none ∧ ∃ v, t = s.deliver v) ∨ ∃ ls, program s.params i = some ls ∧
      (∀ axis, i = .getActiveModel axis → modelMissing axis s = false) ∧
      t = (s.beginCall s.cur i ls).runLines s.callFuel s.cur := by
  cases exec_result h with
  | evaluates v hp => exact .inl ⟨hp, v, rfl⟩
  | waits a ha => cases hs.symm.trans ha
  | transmits a f ha => cases hs.symm.trans ha
  | runs ls _ hp hm => exact .inr ⟨ls, hp, hm, rfl⟩

section
variable (s : State)
@[simp] theorem scheduled_cur : s.scheduled.cur = s.nextPick.caller := rfl
@[simp] theorem scheduled_ready : s.scheduled.ready = s.ready := rfl
@[simp] theorem scheduled_powerEnabled : s.scheduled.powerEnabled = s.powerEnabled := rfl
@[simp] theorem scheduled_transport : s.scheduled.transport = s.transport := rfl
@[simp] theorem scheduled_axis0 : s.scheduled.axis0 = s.axis0 := rfl
@[simp] theorem scheduled_axis1 : s.scheduled.axis1 = s.axis1 := rfl
@[simp] theorem scheduled_lock : s.scheduled.lock = s.lock := rfl
@[simp] theorem scheduled_lockOpen (g : Nat) : s.scheduled.lockOpen g = s.lockOpen g := rfl
@[simp] theorem scheduled_callers : s.scheduled.callers = s.callers := rfl
@[simp] theorem scheduled_caller (g : Nat) : s.scheduled.caller g = s.caller g := rfl
@[simp] theorem scheduled_slot (g : Nat) : s.scheduled.slot g = s.slot g := rfl
@[simp] theorem scheduled_log : s.scheduled.log = s.log := rfl
@[simp] theorem scheduled_params : s.scheduled.params = s.params := rfl

@[simp] theorem popCall_cur : s.popCall.cur = s.cur := rfl
@[simp] theorem popCall_lockOpen (g : Nat) : s.popCall.lockOpen g = s.lockOpen g := rfl
@[simp] theorem popCall_params : s.popCall.params = s.params := rfl
@[simp] theorem popCall_slot (g : Nat) : s.popCall.slot g = s.slot g := by
  unfold State.popCall; rw [slot_setCaller]; split
  next h => rw [h]; rfl
  next => rfl
end

/-- What a step of the machine can lead to. -/
inductive StepResult (s : State) : State → Prop
  | waits : StepResult s s.scheduled
  | line (a : Activation) (hs : s.slot s.nextPick.caller = .active a) (hl : s.lockOpen s.nextPick.caller = true) :
    StepResult s (s.scheduled.lineStep s.nextPick.caller)
  | evaluates (v : Value) : StepResult s (s.scheduled.popCall.deliver v)
  | calls (i : Instr) (ls : List Line) (fuel : Nat) (hs : s.slot s.nextPick.caller = .idle)
      (hl : s.lockOpen s.nextPick.caller = true) (hp : program s.params i = some ls)
      (hw : s.nextPick.whole = false → fuel = 0) :
    StepResult s ((s.scheduled.popCall.beginCall s.nextPick.caller i ls).runLines fuel s.nextPick.caller)

theorem lineStep_cons {g : Nat} {s : State} {a : Activation} {l : Line} {ls : List Line} (hs : s.slot g = .active a)
    (hr : a.rest = l :: ls) : s.lineStep g = runLine g a l s := by
  simp only [State.lineStep, hs, hr]

/-- At a transmit line the decoder and `exec` do what the line does. -/
theorem stepEmit_eq {s : State} {a : Activation} {f : Frame} {i : Instr} {ls : List Line} (hs : s.slot s.cur = .active a)
    (hr : a.rest = .emit f :: ls) (hl : s.lockOpen s.cur = true) (hd : decodeFrame s.params.codes f = .ok i) :
    stepEmit f s = .next (s.lineStep s.cur) := by
  simp only [stepEmit, hd, exec_of_encodeFrame (encodeFrame_of_decodeFrame hd), emitFrame_active hs, hl, if_true, onNext,
    lineStep_cons hs hr, runLine]

/-- A step of a line that has a next state does what the line does. -/
theorem stepLine_next {s t : State} {a : Activation} (hs : s.slot s.cur = .active a) (hl : s.lockOpen s.cur = true)
    (h : stepLine a s = .next t) : t = s.lineStep s.cur := by
  unfold stepLine at h
  split at h
  next => cases h; rfl
  next l ls hr =>
    split at h
    next f =>
      rcases hd : decodeFrame s.params.codes f with e | i
      · simp only [stepEmit, hd] at h; cases h
      · rw [stepEmit_eq hs hr hl hd] at h; cases h; rfl
    next =>
      split at h
      next => cases h
      next => split at h <;> cases h; rfl

theorem stepCall_whole (i : Instr) (s : State) : stepCall true i s = exec i s := by
  unfold stepCall; split
  next h _ => cases h
  next => rfl

theorem stepCall_without_lines {s : State} {i : Instr} (hp : program s.params i = none) (whole : Bool) :
    stepCall whole i s = exec i s := by
  simp only [stepCall, hp]

theorem stepCall_begins {s : State} {i : Instr} {ls : List Line} (hp : program s.params i = some ls) :
    stepCall false i s = .next (s.beginCall s.cur i ls) := by
  simp only [stepCall, hp]

/-- The step of an idle caller that has a call to make and does not wait for the lock. -/
theorem stepCall_result {s t : State} {i : Instr} (hs : s.slot s.nextPick.caller = .idle)
    (hl : (runsInSlot i s && !s.lockOpen s.nextPick.caller) = false)
    (h : stepCall s.nextPick.whole i s.scheduled.popCall = .next t) : StepResult s t := by
  have hi : s.scheduled.popCall.slot s.nextPick.caller = .idle := by simpa using hs
  have hopen {ls : List Line} (hp : program s.params i = some ls) : s.lockOpen s.nextPick.caller = true := by
    simpa [runsInSlot, hp] using hl
  have runs (hw : s.nextPick.whole = false → program s.params i = none) (h : exec i s.scheduled.popCall = .next t) :
      StepResult s t := by
    rcases exec_idle hi h with ⟨-, v, rfl⟩ | ⟨ls, hp, -, rfl⟩
    · exact .evaluates v
    · exact .calls i ls _ hs (hopen hp) hp fun h => by cases hp.symm.trans (hw h)
  cases hp : program s.params i with
  | none =>
    rw [stepCall_without_lines (s := s.scheduled.popCall) hp] at h
    exact runs (fun _ => hp) h
  | some ls =>
    cases hw : s.nextPick.whole with
    | false =>
      rw [hw, stepCall_begins (s := s.scheduled.popCall) hp] at h; cases h
      exact .calls i ls 0 hs (hopen hp) hp fun _ => rfl
    | true =>
      rw [hw, stepCall_whole] at h
      exact runs (by simp [hw]) h

theorem step_result {s t : State} (h : step s = .next t) : StepResult s t := by
  unfold step cycle stepCaller at h
  split at h
  next a hs =>
    split at h
    next hl => rw [stepLine_next hs hl h]; exact .line a hs hl
    next => cases h; exact .waits
  next hs =>
    split at h
    next => cases h; exact .waits
    next i is hc =>
      split at h
      next => cases h; exact .waits
      next hl => exact stepCall_result hs (Bool.eq_false_iff.mpr hl) h

/-! ### Runs of lines -/

/-- What every line of caller `g` keeps, a run of its lines keeps. -/
theorem runLines_keeps {g : Nat} {P : State → Prop} (h : ∀ s, P s → P (s.lineStep g)) :
    ∀ (fuel : Nat) (s : State), P s → P (s.runLines fuel g)
  | 0, _, hs => hs
  | fuel + 1, s, hs => by
    unfold State.runLines
    split
    next => exact hs
    next => exact runLines_keeps h fuel _ (h s hs)

end Sys2Proof.Machine

/-! PROOF. The frame of a step, and the primitives of a line (O50, O51). -/

namespace Sys2Proof.Machine

/-! ### What the writes of a line change -/

/-- The events of a line that goes on. -/
def Line.events (a : Activation) (s : State) : Line → List Event
  | .emit f => [exchange (txOf s.params.codes a.dev f) (s.answer 0)]
  | .sleep ms => [.sleep ms]
  | .driveReset level => [.resetPin level]
  | .switchPower on => [.powerPin on]
  | .persist index => [.persist a.dev index]
  | _ => []

section
variable (g : Nat) (a : Activation) (s : State) (l : Line)

@[simp] theorem write_log : (l.write g a s).log = s.logAfter g (l.events a s) := by
  cases l <;> simp [Line.write, Line.events, State.logAfter]

@[simp] theorem write_callers : (l.write g a s).callers = s.callers := by
  cases l <;> simp [Line.write]

@[simp] theorem write_params : (l.write g a s).params = s.params := by
  cases l <;> simp [Line.write]

@[simp] theorem write_transport : (l.write g a s).transport = s.transport := by
  cases l <;> simp [Line.write]

theorem write_ready (h : s.ready = true) : (l.write g a s).ready = true := by
  cases l <;> simp [Line.write, h]

theorem events_length : (l.events a s).length ≤ 1 := by
  cases l <;> simp [Line.events]

theorem events_primitive : ∀ e ∈ l.events a s, e.isPrimitive = true := by
  cases l <;> simp [Line.events, exchange, Event.isPrimitive]

end

/-! ### A step changes only its caller (R25, R31, R70) -/

/-- Caller `g` has acted: the log is longer by entries of its own, every other caller, the parameters and the transport are as
they were, and ready once set stays set. -/
structure ActsFor (g : Nat) (s t : State) : Prop where
  log : ∃ es, t.log = s.log ++ es ∧ ∀ e ∈ es, e.caller = g
  others : ∀ h, h ≠ g → t.caller h = s.caller h
  params : t.params = s.params
  transport : t.transport = s.transport
  ready : s.ready = true → t.ready = true

theorem ActsFor.refl (g : Nat) (s : State) : ActsFor g s s :=
  ⟨⟨[], by simp⟩, fun _ _ => rfl, rfl, rfl, id⟩

theorem ActsFor.trans {g : Nat} {s t u : State} (h : ActsFor g s t) (k : ActsFor g t u) : ActsFor g s u := by
  obtain ⟨es, hes, hg⟩ := h.log
  obtain ⟨fs, hfs, hg'⟩ := k.log
  exact
    { log := ⟨es ++ fs, by rw [hfs, hes, List.append_assoc], fun e he => (List.mem_append.mp he).elim (hg e) (hg' e)⟩
      others := fun i hi => (k.others i hi).trans (h.others i hi)
      params := k.params.trans h.params
      transport := k.transport.trans h.transport
      ready := fun hr => k.ready (h.ready hr) }

/-- A state that differs from `s` only in caller `g` (and in the draws, the current caller). -/
theorem ActsFor.setCaller (g : Nat) (c : Caller) (s : State) : ActsFor g s (s.setCaller g c) :=
  ⟨⟨[], by simp⟩, fun h hh => by simp [hh], rfl, rfl, id⟩

theorem lineStep_actsFor (g : Nat) (s : State) : ActsFor g s (s.lineStep g) := by
  have hres := lineStep_result g s
  generalize s.lineStep g = t at hres ⊢
  cases hres with
  | stays => exact .refl g s
  | drained => exact .setCaller ..
  | ends a l ls r env =>
    exact ⟨⟨[⟨g, .ret a.op r⟩], by simp⟩, fun h hh => by simp [hh]; rfl, rfl, rfl, id⟩
  | moves a l ls env =>
    exact
      { log := ⟨(l.events a s).map (Entry.mk g), by simp [State.logAfter], by simp⟩
        others := fun h hh => by rw [caller_setSlot, if_neg hh]; exact caller_congr (write_callers ..) h
        params := write_params ..
        transport := write_transport ..
        ready := write_ready g a s l }

theorem runLines_actsFor (g fuel : Nat) (s : State) : ActsFor g s (s.runLines fuel g) :=
  runLines_keeps (P := ActsFor g s) (fun t h => h.trans (lineStep_actsFor g t)) fuel s (.refl g s)

theorem scheduled_actsFor (g : Nat) (s : State) : ActsFor g s s.scheduled := ⟨⟨[], by simp⟩, fun _ _ => rfl, rfl, rfl, id⟩

theorem step_actsFor {s t : State} (h : step s = .next t) : ActsFor s.nextPick.caller s t := by
  have hs := scheduled_actsFor s.nextPick.caller s
  have hp : ActsFor s.nextPick.caller s s.scheduled.popCall := hs.trans (.setCaller ..)
  cases step_result h with
  | waits => exact hs
  | line a => exact hs.trans (lineStep_actsFor ..)
  | evaluates v => exact hp.trans (.setCaller ..)
  | calls i ls fuel => exact (hp.trans (.setCaller ..)).trans (runLines_actsFor ..)

/-- Settles O50: every line acts for its caller, and a step is lines of one caller. -/
theorem stepChangesOnlyItsCaller : Obligations.StepChangesOnlyItsCaller := by
  intro s t h
  obtain ⟨hlog, hothers, hparams, htransport, hready⟩ := step_actsFor h
  exact ⟨hlog, hothers, hparams, htransport, hready⟩

/-! ### A line makes at most one primitive (R32, R33) -/

/-- Settles O51: a line that goes on makes at most one primitive, and a line that ends its operation makes the Return alone. -/
theorem lineMakesAtMostOnePrimitive : Obligations.LineMakesAtMostOnePrimitive := by
  intro s t hwhole h
  have silent {t : State} (ht : t.log = s.log) : ∃ es : List Entry, t.log = s.log ++ es ∧ es.length ≤ 1 ∧
      (∀ e ∈ es, e.event.isPrimitive = false → t.slot s.nextPick.caller = .idle) := ⟨[], by simp [ht]⟩
  cases step_result h with
  | waits => exact silent rfl
  | line a =>
    have hres := lineStep_result s.nextPick.caller s.scheduled
    generalize State.lineStep s.nextPick.caller s.scheduled = t at hres ⊢
    cases hres with
    | stays => exact silent rfl
    | drained => exact silent rfl
    | ends a l ls r env => exact ⟨[⟨s.nextPick.caller, .ret a.op r⟩], by simp⟩
    | moves a l ls env =>
      refine ⟨(l.events a s.scheduled).map (Entry.mk s.nextPick.caller), by simp [State.logAfter], by simp [events_length], ?_⟩
      intro e he hp
      obtain ⟨ev, hev, rfl⟩ := List.mem_map.mp he
      cases hp.symm.trans (events_primitive _ _ _ ev hev)
  | evaluates v => exact silent rfl
  | calls i ls fuel _ _ _ hfuel =>
    obtain rfl := hfuel hwhole
    exact silent rfl

end Sys2Proof.Machine

/-! PROOF. The frames the block sends, and the lines that a line inlines. -/

namespace Sys2Proof.Machine

/-! ### The opcode bytes of frames that move no motor -/

/-- The opcode bytes of R91 that belong to no motion frame. -/
def quietOpcodes (c : Codes) : List Byte :=
  [c.opcGetStatus, c.opcGetAbsPos, c.opcNop, c.opcSetParam ||| c.regAcc, c.opcSetParam ||| c.regDec,
   c.opcSetParam ||| c.regMaxSpeed, c.opcSetParam ||| c.regKvalHold, c.opcSetParam ||| c.regKvalRun,
   c.opcSetParam ||| c.regKvalAcc, c.opcSetParam ||| c.regKvalDec, c.opcSetParam ||| c.regOcdTh,
   c.opcSetParam ||| c.regStallTh, c.opcSetParam ||| c.regStepMode, c.opcSoftHiz, c.opcHardHiz, c.opcSoftStop,
   c.opcHardStop, c.opcResetPos]

/-- In a legal configuration the motion opcodes are distinct from all others. -/
theorem quiet_not_motion {c : Codes} (hl : c.legal = true) {b : Byte} (hb : b ∈ quietOpcodes c) : b ∉ motionOpcodes c := by
  let turning : List Byte := [Config.opcRun, Config.opcRun ||| 1#8]
  let moving : List Byte := [Config.opcMove, Config.opcMove ||| 1#8]
  let going : List Byte := [c.opcGoto, c.opcGotoDir, c.opcGotoDir ||| 1#8, c.opcGoHome]
  have hn : ((quietOpcodes c).take 13 ++ ((moving ++ (turning ++ going)) ++ (quietOpcodes c).drop 13)).Nodup :=
    Laws.RoundTrip.legal_nodup hl
  obtain ⟨-, htail, hhead⟩ := List.nodup_append.mp hn
  obtain ⟨-, -, hlast⟩ := List.nodup_append.mp htail
  intro hm
  have hmid : b ∈ moving ++ (turning ++ going) := (List.perm_append_comm_assoc turning moving going).mem_iff.mp hm
  rw [← List.take_append_drop 13 (quietOpcodes c)] at hb
  rcases List.mem_append.mp hb with hb | hb
  · exact hhead b hb b (List.mem_append_left _ hmid) rfl
  · exact hlast b hmid b hb rfl

/-- The motion frames: RUN, MOVE, GOTO, GOTO_DIR and GO_HOME (R91). -/
def motionFrame : Instr → Bool
  | .frameRun0 _ | .frameRun1 _ | .frameMove0 _ | .frameMove1 _ | .frameGoto _ | .frameGotoDir0 _ | .frameGotoDir1 _
  | .frameGoHome => true
  | _ => false

/-- A frame of R91, which may be a motion frame if `motion` says so. -/
def Sendable (c : Codes) (motion : Bool) (f : Frame) : Prop :=
  ∃ j, encodeFrame c j = some f ∧ (motionFrame j = true → motion = true)

theorem quiet_of_encodeFrame {c : Codes} {j : Instr} {f : Frame} (h : encodeFrame c j = some f) (hj : motionFrame j = false) :
    f.b0 ∈ quietOpcodes c := by
  cases j <;> cases hj <;> cases h <;> simp [quietOpcodes, fmtNoarg, fmtReg8, fmtReg16]

theorem Sendable.not_motion {c : Codes} (hl : c.legal = true) {f : Frame} (h : Sendable c false f) : f.b0 ∉ motionOpcodes c := by
  obtain ⟨j, hj, hm⟩ := h
  exact quiet_not_motion hl (quiet_of_encodeFrame hj (Bool.eq_false_iff.mpr fun h => by cases hm h))

theorem Sendable.decodes {c : Codes} (hl : c.legal = true) {b : Bool} {f : Frame} (h : Sendable c b f) :
    ∃ i, decodeFrame c f = .ok i := by
  obtain ⟨j, hj, -⟩ := h
  exact ⟨j, decodeFrame_of_encodeFrame hl hj⟩

theorem getStatus_sendable (c : Codes) (b : Bool) : Sendable c b (getStatusFrame c) := ⟨.frameGetStatus, rfl, nofun⟩

/-! The packers' frames, in the formats of R83 to R87. -/

theorem packRun_eq (d : Dev) (dir : U8) (v : U32) : packRun d dir v = fmtDir20 (Config.opcRun ||| dirBit dir) (v.setWidth 20) := by
  simp only [packRun, fmtDir20, Frame.mk.injEq, true_and, and_true]
  exact BitVec.setWidth_eq_append (by omega)

theorem frame22_eq (b : Byte) (v : BitVec 22) : frame22 b v = fmtDir22 b v := by
  simp only [frame22, fmtDir22, Frame.mk.injEq, true_and, and_true]
  exact BitVec.setWidth_eq_append (by omega)

theorem packRegisterWrite2_eq (d : Dev) (b : Byte) (v : U32) : packRegisterWrite2 d b v = fmtReg16 b (v.setWidth 16) := by
  simp only [packRegisterWrite2, fmtReg16]
  rw [BitVec.extractLsb'_setWidth_of_le (by omega), BitVec.extractLsb'_setWidth_of_le (by omega)]

theorem regWrite_sendable (c : Codes) (m : MotorModel) : ∀ w ∈ paramWrites c m, Sendable c false (regWriteFrame c 0 w) := by
  have two (reg : Byte) (v : U32) {j : Instr} (hj : encodeFrame c j = some (fmtReg16 (c.opcSetParam ||| reg) (v.setWidth 16)))
      (hm : motionFrame j = true → false = true) : Sendable c false (regWriteFrame c 0 ⟨reg, .two, v⟩) :=
    ⟨j, hj.trans (congrArg some (packRegisterWrite2_eq 0 _ v).symm), hm⟩
  simp only [paramWrites, List.forall_mem_cons]
  exact ⟨⟨.frameSetParamStepMode _, rfl, nofun⟩, ⟨.frameSetParamKvalHold _, rfl, nofun⟩, ⟨.frameSetParamKvalRun _, rfl, nofun⟩,
    ⟨.frameSetParamKvalAcc _, rfl, nofun⟩, ⟨.frameSetParamKvalDec _, rfl, nofun⟩, ⟨.frameSetParamOcdTh _, rfl, nofun⟩,
    two _ _ (j := .frameSetParamAcc _) rfl nofun, two _ _ (j := .frameSetParamDec _) rfl nofun,
    two _ _ (j := .frameSetParamMaxSpeed _) rfl nofun, ⟨.frameSetParamStallTh _, rfl, nofun⟩, List.forall_mem_nil _⟩

theorem packRun_sendable (c : Codes) (dir : U8) (v : U32) : Sendable c true (packRun 0 dir v) := by
  rw [packRun_eq]
  rcases dirBit_cases dir with h | h <;> rw [h]
  · exact ⟨.frameRun0 _, rfl, fun _ => rfl⟩
  · exact ⟨.frameRun1 _, rfl, fun _ => rfl⟩

theorem packMove_sendable (c : Codes) (dir : U8) (v : U32) : Sendable c true (packMove 0 dir v) := by
  rw [packMove, frame22_eq]
  rcases dirBit_cases dir with h | h <;> rw [h]
  · exact ⟨.frameMove0 _, rfl, fun _ => rfl⟩
  · exact ⟨.frameMove1 _, rfl, fun _ => rfl⟩

theorem packGoto_sendable (c : Codes) (v : I32) : Sendable c true (packGoto c 0 v) :=
  ⟨.frameGoto _, congrArg some (frame22_eq ..).symm, fun _ => rfl⟩

theorem packGotoDir_sendable (c : Codes) (dir : U8) (v : I32) : Sendable c true (packGotoDir c 0 dir v) := by
  rw [packGotoDir, frame22_eq]
  rcases dirBit_cases dir with h | h <;> rw [h]
  · exact ⟨.frameGotoDir0 (v.setWidth 22), by simp [encodeFrame], fun _ => rfl⟩
  · exact ⟨.frameGotoDir1 _, rfl, fun _ => rfl⟩

/-! ### What the lines inlined by a line hold -/

theorem mem_pollLines {c : Codes} {dev pollMs : U32} {left : Nat} {l : Line} (h : l ∈ pollLines c dev pollMs left) :
    l = .checkDev dev ∨ l = .checkReady ∨ l = .emit (getStatusFrame c) ∨ l = .testPoll dev pollMs left := by
  simpa [pollLines] using h

theorem mem_applyLines {c : Codes} {dev : U32} {m : MotorModel} {l : Line} (h : l ∈ applyLines c dev m) :
    l = .checkDev dev ∨ l = .checkReady ∨ l = .needOk ∨ ∃ w ∈ paramWrites c m, l = .emit (regWriteFrame c 0 w) := by
  simp only [applyLines, sendLines, List.mem_append, List.mem_cons, List.mem_flatMap, List.not_mem_nil, or_false] at h
  rcases h with (h | h) | ⟨w, hw, h | h⟩
  · exact .inl h
  · exact .inr (.inl h)
  · exact .inr (.inr (.inr ⟨w, hw, h⟩))
  · exact .inr (.inr (.inl h))

/-- The lines that the line `l` puts before those after it. -/
inductive Inlined (s : State) (l : Line) : Line → Prop
  | poll (dev pollMs : U32) (left : Nat) (x : Line) (h : x ∈ pollLines s.params.codes dev pollMs left) : Inlined s l x
  | wait (dev pollMs : U32) (left : Nat) : Inlined s l (.testDeadline dev pollMs left)
  | sleep (ms : Nat) : Inlined s l (.sleep ms)
  | apply (dev : U32) (m : MotorModel) (x : Line) (h : x ∈ applyLines s.params.codes dev m) : Inlined s l x
  | select (i : U32) (h : l = .findIndex i ∨ ∃ name m, l = .findName name ∧ lookupByName s.params.catalog name = some (i, m)) :
    Inlined s l (.setAxis i)
  | persist (i : U32) : Inlined s l (.persist i)

/-- A line still to run stood in the list before, or has just been inlined. -/
theorem mem_following {s : State} {l x : Line} {ls : List Line} (h : x ∈ l.following s ls) : x ∈ ls ∨ Inlined s l x := by
  cases l with
  | tryReady skip =>
    simp only [Line.following] at h
    split at h
    · exact .inl h
    · exact .inl (List.mem_of_mem_drop h)
  | armDeadline dev timeoutMs pollMs =>
    rcases List.mem_append.mp h with h | h
    · exact .inr (.poll _ _ _ x h)
    · exact .inl h
  | testPoll dev pollMs left =>
    rcases List.mem_cons.mp h with rfl | h
    · exact .inr (.wait ..)
    · exact .inl h
  | testDeadline dev pollMs left =>
    rcases List.mem_cons.mp h with rfl | h
    · exact .inr (.sleep _)
    rcases List.mem_append.mp h with h | h
    · exact .inr (.poll _ _ _ x h)
    · exact .inl h
  | rearm axis =>
    simp only [Line.following] at h
    split at h
    · rcases List.mem_append.mp h with h | h
      · exact .inr (.apply _ _ x h)
      · exact .inl h
    · exact .inl h
  | findIndex index =>
    rcases List.mem_cons.mp h with rfl | h
    · exact .inr (.select _ (.inl rfl))
    rcases List.mem_cons.mp h with rfl | h
    · exact .inr (.persist _)
    · exact .inl h
  | findName name =>
    simp only [Line.following] at h
    split at h
    next i m hm =>
      rcases List.mem_cons.mp h with rfl | h
      · exact .inr (.select _ (.inr ⟨name, m, rfl, hm⟩))
      rcases List.mem_cons.mp h with rfl | h
      · exact .inr (.persist _)
      · exact .inl h
    next => exact .inl h
  | _ => exact .inl h

/-- The frames of inlined lines are a status read and the register writes. -/
theorem inlined_emit {s : State} {l : Line} {f : Frame} (h : Inlined s l (.emit f)) : Sendable s.params.codes false f := by
  cases h with
  | poll dev pollMs left _ h =>
    rcases mem_pollLines h with h | h | h | h <;> cases h
    exact getStatus_sendable ..
  | apply dev m _ h =>
    rcases mem_applyLines h with h | h | h | ⟨w, hw, h⟩ <;> cases h
    exact regWrite_sendable _ m w hw

/-- An inlined selection is that of an index or name the line has looked up. -/
theorem inlined_setAxis {s : State} {l : Line} {i : U32} (h : Inlined s l (.setAxis i)) :
    l = .findIndex i ∨ ∃ name m, l = .findName name ∧ lookupByName s.params.catalog name = some (i, m) := by
  cases h with
  | poll dev pollMs left _ h => rcases mem_pollLines h with h | h | h | h <;> cases h
  | apply dev m _ h => rcases mem_applyLines h with h | h | h | ⟨w, hw, h⟩ <;> cases h
  | select _ h => exact h

/-- A name is found at an index of the catalog. -/
theorem lookupByName_lt {name : String} : ∀ {ms : List MotorModel} {i : U32} {m : MotorModel}, ms.length < 2 ^ 32 →
    lookupByName ms name = some (i, m) → i.toNat < ms.length
  | [], _, _, _, h => by cases h
  | m0 :: ms, i, m, hlen, h => by
    simp only [List.length_cons] at hlen ⊢
    rw [lookupByName] at h
    split at h
    · cases h; simp
    · obtain ⟨⟨j, m'⟩, hj, h⟩ := Option.map_eq_some_iff.mp h
      cases h
      have := lookupByName_lt (by omega) hj
      rw [BitVec.toNat_add, show (1#32).toNat = 1 from rfl]
      omega

theorem inlined_setAxis_valid {g : Nat} {s : State} {l : Line} {i : U32} (hlegal : s.params.legal = true) (hl : l.passes g s)
    (h : Inlined s l (.setAxis i)) : i < catalogCount s.params.catalog := by
  rcases inlined_setAxis h with rfl | ⟨name, m, rfl, hm⟩
  · exact (lookupByIndex_isSome hlegal i).mp hl
  · have hlen : s.params.catalog.length < 2 ^ 32 := by rw [← catalogCount_toNat hlegal]; exact BitVec.isLt _
    rw [BitVec.lt_def, catalogCount_toNat hlegal]
    exact lookupByName_lt hlen hm

end Sys2Proof.Machine

/-! PROOF. The clauses of the invariant along a line that goes on. -/

namespace Sys2Proof.Machine

/-! ### The clauses of the invariant along a line that goes on -/

section
variable {g : Nat} {s : State} {a : Activation} {l : Line} {ls : List Line}

/-- Readiness stays tested: a line after which an unguarded line may follow has found the chain ready (R22). -/
theorem guarded_following (hl : l.passes g s) (h : s.ready = true ∨ guarded (l :: ls) = true) :
    (l.write g a s).ready = true ∨ guarded (l.following s ls) = true := by
  rcases h with h | h
  · exact .inl (write_ready g a s l h)
  cases l with
  | checkReady => exact .inl hl
  | emit f => cases h
  | tryReady skip => cases h
  | switchPower on => exact .inr (Bool.and_eq_true_iff.mp h).2
  | armDeadline dev timeoutMs pollMs => exact .inr rfl
  | testDeadline dev pollMs left => exact .inr rfl
  | rearm axis => right; simp only [Line.following]; split <;> [rfl; exact h]
  | findName name => right; simp only [Line.following]; split <;> exact h
  | _ => exact .inr h

/-- A line that the readiness of the chain decides is reached ready. -/
theorem ready_of_tryReady {skip : Nat} (h : s.ready = true ∨ guarded (.tryReady skip :: ls) = true) : s.ready = true := by
  rcases h with h | h
  · exact h
  · cases h

theorem ready_of_emit {f : Frame} (h : s.ready = true ∨ guarded (.emit f :: ls) = true) : s.ready = true := by
  rcases h with h | h
  · exact h
  · cases h

/-! The lock (R71, R226). -/

/-- Lines that leave the lock and the reset pin alone may stand where the lock is not held. -/
theorem lockDisciplined_append {xs : List Line} (hx : ∀ x ∈ xs, ∀ ys, lockDisciplined false (x :: ys) = lockDisciplined false ys)
    (h : lockDisciplined false ls = true) : lockDisciplined false (xs ++ ls) = true := by
  induction xs with
  | nil => exact h
  | cons x xs ih =>
    rw [List.cons_append, hx x (by simp)]
    exact ih fun y hy => hx y (List.mem_cons_of_mem _ hy)

theorem lockDisciplined_poll {c : Codes} {dev pollMs : U32} {left : Nat} (h : lockDisciplined false ls = true) :
    lockDisciplined false (pollLines c dev pollMs left ++ ls) = true :=
  lockDisciplined_append (fun x hx ys => by rcases mem_pollLines hx with rfl | rfl | rfl | rfl <;> rfl) h

theorem lockDisciplined_apply {c : Codes} {dev : U32} {m : MotorModel} (h : lockDisciplined false ls = true) :
    lockDisciplined false (applyLines c dev m ++ ls) = true :=
  lockDisciplined_append (fun x hx ys => by rcases mem_applyLines hx with rfl | rfl | rfl | ⟨w, -, rfl⟩ <;> rfl) h

theorem lockDisciplined_following (hready : s.ready = true ∨ guarded (l :: ls) = true)
    (h : lockDisciplined (s.lock == some g) (l :: ls) = true) :
    lockDisciplined ((l.write g a s).lock == some g) (l.following s ls) = true := by
  have free {held : Bool} (h : (!held && lockDisciplined held ls) = true) : held = false ∧ lockDisciplined false ls = true := by
    cases held
    · exact ⟨rfl, h⟩
    · cases h
  cases l with
  | acquireLock =>
    simp only [Line.write, Line.following, beq_self_eq_true]
    exact (Bool.and_eq_true_iff.mp h).2
  | releaseLock => exact (Bool.and_eq_true_iff.mp h).2
  | driveReset level => exact (Bool.and_eq_true_iff.mp h).2
  | sleep ms => exact h
  | setAxis index => simpa [Line.write, Line.following] using (Bool.and_eq_true_iff.mp h).2
  | tryReady skip =>
    simp only [Line.following, ready_of_tryReady hready, if_true]
    exact (Bool.and_eq_true_iff.mp h).2
  | armDeadline dev timeoutMs pollMs =>
    obtain ⟨hf, h⟩ := free h
    simp only [Line.write, Line.following, hf]
    exact lockDisciplined_poll h
  | testPoll dev pollMs left =>
    obtain ⟨hf, h⟩ := free h
    simp only [Line.write, Line.following, hf]
    exact h
  | testDeadline dev pollMs left =>
    obtain ⟨hf, h⟩ := free h
    simp only [Line.write, Line.following, hf]
    exact lockDisciplined_poll h
  | rearm axis =>
    obtain ⟨hf, h⟩ := free h
    simp only [Line.write, Line.following, hf]
    split
    · exact lockDisciplined_apply h
    · exact h
  | findIndex index =>
    obtain ⟨hf, h⟩ := free h
    simp only [Line.write, Line.following, hf]
    exact h
  | findName name =>
    obtain ⟨hf, h⟩ := free h
    simp only [Line.write, Line.following, hf]
    split <;> exact h
  | _ => exact (Bool.and_eq_true_iff.mp h).2

/-- A line of `g` takes the lock from no other caller and gives it to none. -/
theorem write_lock_other (hl : l.passes g s) (h : lockDisciplined (s.lock == some g) (l :: ls) = true) {k : Nat} (hk : k ≠ g) :
    ((l.write g a s).lock == some k) = (s.lock == some k) := by
  cases l with
  | acquireLock =>
    have hl : s.lockOpen g = true := hl
    unfold State.lockOpen at hl
    cases hs : s.lock with
    | none => simp [Line.write, hk.symm]
    | some j => rw [hs] at hl; simp [Line.write, eq_of_beq hl]
  | releaseLock =>
    have hs := eq_of_beq (Bool.and_eq_true_iff.mp h).1
    simp [Line.write, hs, hk.symm]
  | setAxis index => simp [Line.write]
  | _ => rfl

/-- The caller of a line that can end its operation does not hold the lock. -/
theorem unlocked_of_endsWith {r : Result} {held : Bool} (hl : l.endsWith r) (h : lockDisciplined held (l :: ls) = true) :
    held = false := by
  cases l with
  | acquireLock => cases hl
  | releaseLock => cases hl
  | driveReset level => cases hl
  | sleep ms => cases hl
  | _ => simpa using (Bool.and_eq_true_iff.mp h).1

/-! The power pin (R225). -/

theorem powerPinLevel_append (xs ys : List Entry) : powerPinLevel (xs ++ ys) = (powerPinLevel ys).or (powerPinLevel xs) := by
  simp [powerPinLevel, List.filterMap_append, List.getLast?_append]

theorem powerPinLevel_ret (xs : List Entry) (k : Nat) (i : Instr) (r : Result) :
    powerPinLevel (xs ++ [⟨k, .ret i r⟩]) = powerPinLevel xs := powerPinLevel_append ..

/-- Only the power pin's line changes the level, and with it the flag. -/
theorem write_power : (∃ on, l = .switchPower on ∧ powerPinLevel (l.write g a s).log = some on ∧ (l.write g a s).powerEnabled = on) ∨
    (powerPinLevel (l.write g a s).log = powerPinLevel s.log ∧ (l.write g a s).powerEnabled = s.powerEnabled) := by
  rw [write_log, State.logAfter, powerPinLevel_append]
  cases l with
  | switchPower on => exact .inl ⟨on, rfl, rfl, rfl⟩
  | setAxis index => exact .inr ⟨rfl, by simp [Line.write]⟩
  | _ => exact .inr ⟨rfl, rfl⟩

theorem awaitsPin_following (h : awaitsPin (l :: ls) = true) :
    awaitsPin (l.following s ls) = true ∨ powerPinLevel (l.write g a s).log ≠ none := by
  cases l with
  | checkReady => exact .inl h
  | checkPowerPin => exact .inl h
  | switchPower on => right; simp [Line.write, powerPinLevel_append]; simp [powerPinLevel]
  | _ => cases h

/-- Before it has driven the pin, a power operation can only end with NotReady. -/
theorem notReady_of_awaitsPin {r : Result} (hl : l.endsWith r) (h : awaitsPin (l :: ls) = true) : r = .err .notReady := by
  cases l with
  | checkReady => exact hl
  | checkPowerPin => exact hl
  | switchPower on => cases hl
  | _ => cases h

/-! Admission (R180 to R188, R195). -/

/-- The lines that the programs of the motion commands are made of. -/
def Line.inMotion : Line → Bool
  | .checkDev _ | .checkReady | .checkPower | .checkSpeed _ | .checkSteps _ | .tryReady _ | .emit _ | .needOk | .testFault
  | .returnUnit => true
  | _ => false

/-- A motion command is made of these lines, and tests one device only. -/
theorem motion_program {p : Params} {op : Instr} (hg : powerGated op = true) {xs : List Line} (hp : program p op = some xs) :
    xs.all Line.inMotion = true ∧ ∃ dev, ∀ i, .checkDev i ∈ xs → i = dev := by
  cases op with
  | run dev dir speed => cases hp; exact ⟨rfl, dev, by simp [runLines, faultCheckLines, sendLines]⟩
  | move dev dir steps => cases hp; exact ⟨rfl, dev, by simp [moveLines, faultCheckLines, sendLines]⟩
  | goto dev pos => cases hp; exact ⟨rfl, dev, by simp [gotoLines, sendLines]⟩
  | gotoDir dev dir pos => cases hp; exact ⟨rfl, dev, by simp [gotoDirLines, sendLines]⟩
  | goHome dev => cases hp; exact ⟨rfl, dev, by simp [goHomeLines, sendLines]⟩
  | _ => cases hg

/-- A motion command's line that goes on is done and passed, and the lines after it are next. -/
theorem following_of_inMotion (hm : l.inMotion = true) (hready : s.ready = true ∨ guarded (l :: ls) = true) :
    l.following s ls = ls := by
  cases l with
  | tryReady skip => simp only [Line.following, ready_of_tryReady hready, if_true]
  | armDeadline dev timeoutMs pollMs => cases hm
  | testPoll dev pollMs left => cases hm
  | testDeadline dev pollMs left => cases hm
  | rearm axis => cases hm
  | findIndex index => cases hm
  | findName name => cases hm
  | _ => rfl

/-- The device of a motion command is set by its test alone. -/
theorem target_of_inMotion (hm : l.inMotion = true) (hl : l.passes g s) (d : Dev) :
    (∃ i, l = .checkDev i ∧ i.toNat = (l.target d).val) ∨ ((∀ i, l ≠ .checkDev i) ∧ l.target d = d) := by
  cases l with
  | checkDev i => exact .inl ⟨i, rfl, by simp [Line.target, show i.toNat < 2 from hl]⟩
  | checkAxis i => cases hm
  | _ => exact .inr ⟨nofun, rfl⟩

theorem admitted_iff_of_gated (hg : powerGated a.op = true) :
    admitted s a ↔ ∃ pre, program s.params a.op = some (pre ++ a.rest) ∧ passed s a pre := by
  rw [admitted, if_pos hg]

theorem admitted_iff_of_not_gated (hg : ¬ powerGated a.op = true) :
    admitted s a ↔ ∀ f, .emit f ∈ a.rest → f.b0 ∉ motionOpcodes s.params.codes := by
  rw [admitted, if_neg hg]

/-- What is admitted stays so where ready is kept and the parameters are the same. -/
theorem admitted_mono {t : State} (hp : t.params = s.params) (hr : s.ready = true → t.ready = true) (h : admitted s a) :
    admitted t a := by
  by_cases hg : powerGated a.op = true
  · obtain ⟨pre, hpre, hdev, hready, hsteps⟩ := (admitted_iff_of_gated hg).mp h
    exact (admitted_iff_of_gated hg).mpr ⟨pre, by rw [hp]; exact hpre, hdev, fun hc => hr (hready hc), by rw [hp]; exact hsteps⟩
  · rw [admitted_iff_of_not_gated hg] at h ⊢
    rwa [hp]

/-- A check that is done has passed. -/
theorem passed_next {pre : List Line} (hmotion : l.inMotion = true) {dev : U32} (hone : ∀ i, .checkDev i ∈ pre ++ [l] → i = dev)
    (hl : l.passes g s) (h : passed s a pre) : passed s (l.next s a ls) (pre ++ [l]) := by
  obtain ⟨hdev, hready, hsteps⟩ := h
  refine ⟨fun i hi => ?_, fun hi => ?_, fun steps hi => ?_⟩
  · rcases target_of_inMotion hmotion hl a.dev with ⟨j, rfl, hj⟩ | ⟨hno, hsame⟩
    · rw [hone i hi, ← hone j (by simp)]; exact hj
    · rcases List.mem_append.mp hi with hi | hi
      · rw [hdev i hi]; exact congrArg Fin.val hsame.symm
      · exact absurd (List.mem_singleton.mp hi).symm (hno i)
  · rcases List.mem_append.mp hi with hi | hi
    · exact hready hi
    · cases List.mem_singleton.mp hi; exact hl
  · rcases List.mem_append.mp hi with hi | hi
    · exact hsteps steps hi
    · cases List.mem_singleton.mp hi; exact hl

theorem admitted_next (hlegal : s.params.legal = true) (hr : a.rest = l :: ls) (hl : l.passes g s)
    (hready : s.ready = true ∨ guarded (l :: ls) = true) (h : admitted s a) : admitted (l.write g a s) (l.next s a ls) := by
  refine admitted_mono (write_params ..) (write_ready g a s l) ?_
  by_cases hg : powerGated a.op = true
  · obtain ⟨pre, hpre, hpassed⟩ := (admitted_iff_of_gated hg).mp h
    rw [hr, List.append_cons] at hpre
    obtain ⟨hmotion, dev, hone⟩ := motion_program hg hpre
    have hlm : l.inMotion = true := List.all_eq_true.mp hmotion l (by simp)
    refine (admitted_iff_of_gated (a := l.next s a ls) hg).mpr ⟨pre ++ [l], ?_, ?_⟩
    · simp only [Line.next, following_of_inMotion hlm hready]
      exact hpre
    · exact passed_next hlm (fun i hi => hone i (List.mem_append_left _ hi)) hl hpassed
  · refine (admitted_iff_of_not_gated (a := l.next s a ls) hg).mpr fun f hf => ?_
    rcases mem_following hf with hf | hf
    · exact (admitted_iff_of_not_gated hg).mp h f (by rw [hr]; exact List.mem_cons_of_mem _ hf)
    · exact (inlined_emit hf).not_motion (codes_legal hlegal)

end

end Sys2Proof.Machine

/-! PROOF. The invariant along every line. -/

namespace Sys2Proof.Machine

/-! ### The invariant, split by what it speaks of -/

/-- What the invariant says of the operation `a` in progress of caller `g`. -/
structure OperationInv (s : State) (g : Nat) (a : Activation) : Prop where
  guarded : s.ready = true ∨ guarded a.rest = true
  pending : ∀ i, Line.setAxis i ∈ a.rest → i < catalogCount s.params.catalog
  lock : lockDisciplined (s.lock == some g) a.rest = true
  admitted : admitted s a
  pin : drivesPower a.op = true → awaitsPin a.rest = true ∨ powerPinLevel s.log ≠ none

/-- What the invariant says of the block and its log. -/
structure BlockInv (s : State) : Prop where
  params : s.params.legal = true
  power : s.powerEnabled = true → s.ready = true
  axes : s.axis0 < catalogCount s.params.catalog ∧ s.axis1 < catalogCount s.params.catalog
  pin : powerPinLevel s.log = none ∨ powerPinLevel s.log = some s.powerEnabled
  completed : powerCompleted s → powerPinLevel s.log ≠ none

theorem State.Inv.block {s : State} (h : s.Inv) : BlockInv s :=
  ⟨h.params_legal, h.power_ready, h.axes_valid, h.pin_agrees, h.pin_driven.2⟩

theorem State.Inv.operation {s : State} (h : s.Inv) {g : Nat} {a : Activation} (hs : s.slot g = .active a) : OperationInv s g a :=
  ⟨h.slots_guarded g a hs, fun i => h.pending_valid g a i hs, h.lock_disciplined g a hs, h.motion_admitted g a hs,
    h.pin_driven.1 g a hs⟩

theorem inv_of_parts {s : State} (hb : BlockInv s) (ho : ∀ g a, s.slot g = .active a → OperationInv s g a)
    (hl : ∀ h, s.lock = some h → s.slot h ≠ .idle) : s.Inv where
  params_legal := hb.params
  power_ready := hb.power
  slots_guarded := fun g a hs => (ho g a hs).guarded
  axes_valid := hb.axes
  pending_valid := fun g a i hs => (ho g a hs).pending i
  lock_disciplined := fun g a hs => (ho g a hs).lock
  motion_admitted := fun g a hs => (ho g a hs).admitted
  pin_agrees := hb.pin
  pin_driven := ⟨fun g a hs => (ho g a hs).pin, hb.completed⟩
  lock_active := hl

/-- An operation that takes no part in a change keeps its part of the invariant. -/
theorem OperationInv.mono {s t : State} {g : Nat} {a : Activation} (h : OperationInv s g a) (hp : t.params = s.params)
    (hr : s.ready = true → t.ready = true) (hl : (t.lock == some g) = (s.lock == some g))
    (hlog : powerPinLevel s.log ≠ none → powerPinLevel t.log ≠ none) : OperationInv t g a where
  guarded := h.guarded.imp_left hr
  pending := by rw [hp]; exact h.pending
  lock := by rw [hl]; exact h.lock
  admitted := admitted_mono hp hr h.admitted
  pin := fun hd => (h.pin hd).imp_right hlog

/-! ### A line that goes on keeps the invariant -/

section
variable {g : Nat} {s : State} {a : Activation} {l : Line} {ls : List Line}

theorem level_mono (h : powerPinLevel s.log ≠ none) : powerPinLevel (l.write g a s).log ≠ none := by
  rcases write_power (g := g) (s := s) (a := a) (l := l) with ⟨on, -, hlev, -⟩ | ⟨hlev, -⟩
  · rw [hlev]; exact Option.some_ne_none on
  · rw [hlev]; exact h

/-- No event of a line that goes on is a Return. -/
theorem powerCompleted_write (h : powerCompleted (l.write g a s)) : powerCompleted s := by
  obtain ⟨k, i, r, hmem, hi⟩ := h
  rw [write_log, State.logAfter] at hmem
  rcases List.mem_append.mp hmem with hmem | hmem
  · exact ⟨k, i, r, hmem, hi⟩
  · obtain ⟨e, he, heq⟩ := List.mem_map.mp hmem
    cases heq
    cases events_primitive a s l _ he

theorem write_axes (hax : s.axis0 < catalogCount s.params.catalog ∧ s.axis1 < catalogCount s.params.catalog)
    (hp : ∀ i, l = .setAxis i → i < catalogCount s.params.catalog) :
    (l.write g a s).axis0 < catalogCount s.params.catalog ∧ (l.write g a s).axis1 < catalogCount s.params.catalog := by
  cases l with
  | setAxis i =>
    simp only [Line.write, State.setAxisModel]
    split
    · exact ⟨hp i rfl, hax.2⟩
    · exact ⟨hax.1, hp i rfl⟩
  | _ => exact hax

theorem write_power_ready (h : s.powerEnabled = true → s.ready = true) (hg : s.ready = true ∨ guarded (l :: ls) = true) :
    (l.write g a s).powerEnabled = true → (l.write g a s).ready = true := by
  intro hp
  rcases write_power (g := g) (s := s) (a := a) (l := l) with ⟨on, rfl, -, hon⟩ | ⟨-, hsame⟩
  · obtain rfl : on = true := hon.symm.trans hp
    exact hg.elim id nofun
  · exact write_ready g a s l (h (hsame.symm.trans hp))

theorem BlockInv.write (h : BlockInv s) (hr : a.rest = l :: ls) (ho : OperationInv s g a) : BlockInv (l.write g a s) where
  params := by rw [write_params]; exact h.params
  power := write_power_ready h.power (hr ▸ ho.guarded)
  axes := by
    rw [write_params]
    exact write_axes h.axes fun i hi => ho.pending i (by rw [hr, hi]; exact List.mem_cons_self)
  pin := by
    rcases write_power (g := g) (s := s) (a := a) (l := l) with ⟨on, -, hlev, hon⟩ | ⟨hlev, hsame⟩
    · exact .inr (by rw [hlev, hon])
    · rw [hlev, hsame]; exact h.pin
  completed := fun hc => level_mono (h.completed (powerCompleted_write hc))

theorem OperationInv.next (hlegal : s.params.legal = true) (hr : a.rest = l :: ls) (hl : l.passes g s) (h : OperationInv s g a) :
    OperationInv (l.write g a s) g (l.next s a ls) := by
  obtain ⟨hguarded, hpending, hlock, hadmitted, hpin⟩ := h
  have hadm := admitted_next hlegal hr hl (hr ▸ hguarded) hadmitted
  rw [hr] at hguarded hpending hlock hpin
  exact
    { guarded := guarded_following hl hguarded
      pending := fun i hi => by
        rw [write_params]
        rcases mem_following hi with hi | hi
        · exact hpending i (List.mem_cons_of_mem _ hi)
        · exact inlined_setAxis_valid hlegal hl hi
      lock := lockDisciplined_following hguarded hlock
      admitted := hadm
      pin := fun hd => (hpin hd).elim awaitsPin_following fun hlev => .inr (level_mono hlev) }

end

/-! ### The invariant after a change of one caller -/

theorem BlockInv.congr {s t : State} (h : BlockInv s) (hp : t.params = s.params) (hr : t.ready = s.ready)
    (hpe : t.powerEnabled = s.powerEnabled) (h0 : t.axis0 = s.axis0) (h1 : t.axis1 = s.axis1) (hlog : t.log = s.log) :
    BlockInv t where
  params := by rw [hp]; exact h.params
  power := by rw [hpe, hr]; exact h.power
  axes := by rw [hp, h0, h1]; exact h.axes
  pin := by rw [hlog, hpe]; exact h.pin
  completed := by unfold powerCompleted; rw [hlog]; exact h.completed

section
variable {s t : State} {g : Nat}

/-- A state that keeps the other callers' operations, and whose block and caller `g` are as they should be. -/
theorem State.Inv.update (h : s.Inv) (hb : BlockInv t) (hp : t.params = s.params) (hr : s.ready = true → t.ready = true)
    (hlog : powerPinLevel s.log ≠ none → powerPinLevel t.log ≠ none)
    (hlock : ∀ k, k ≠ g → (t.lock == some k) = (s.lock == some k)) (hslots : ∀ k, k ≠ g → t.slot k = s.slot k)
    (hown : ∀ a, t.slot g = .active a → OperationInv t g a) (hheld : t.lock = some g → t.slot g ≠ .idle) : t.Inv := by
  refine inv_of_parts hb (fun k a hk => ?_) fun k hk => ?_
  · by_cases hkg : k = g
    · subst hkg; exact hown a hk
    · rw [hslots k hkg] at hk
      exact (h.operation hk).mono hp hr (hlock k hkg) hlog
  · by_cases hkg : k = g
    · subst hkg; exact hheld hk
    · rw [hslots k hkg]
      exact h.lock_active k (by simpa [hk] using hlock k hkg)

/-- A state that differs from `s` only in the slot of `g` and in what the invariant does not speak of. -/
theorem State.Inv.update_slot (h : s.Inv) (hp : t.params = s.params) (hr : t.ready = s.ready)
    (hpe : t.powerEnabled = s.powerEnabled) (h0 : t.axis0 = s.axis0) (h1 : t.axis1 = s.axis1) (hlog : t.log = s.log)
    (hlock : t.lock = s.lock) (hslots : ∀ k, k ≠ g → t.slot k = s.slot k)
    (hown : ∀ a, t.slot g = .active a → OperationInv s g a) (hheld : s.lock = some g → t.slot g ≠ .idle) : t.Inv :=
  h.update (h.block.congr hp hr hpe h0 h1 hlog) hp (by rw [hr]; exact id) (by rw [hlog]; exact id) (fun k _ => by rw [hlock])
    hslots (fun a ha => (hown a ha).mono hp (by rw [hr]; exact id) (by rw [hlock]) (by rw [hlog]; exact id))
    (by rw [hlock]; exact hheld)

/-- A state with the same slots, block and log. -/
theorem State.Inv.congr (h : s.Inv) (hp : t.params = s.params) (hr : t.ready = s.ready)
    (hpe : t.powerEnabled = s.powerEnabled) (h0 : t.axis0 = s.axis0) (h1 : t.axis1 = s.axis1) (hlog : t.log = s.log)
    (hlock : t.lock = s.lock) (hslots : ∀ k, t.slot k = s.slot k) : t.Inv :=
  h.update_slot (g := 0) hp hr hpe h0 h1 hlog hlock (fun k _ => hslots k)
    (fun _ ha => h.operation ((hslots 0).symm.trans ha)) fun hl => by rw [hslots]; exact h.lock_active 0 hl

/-- The Return of an operation that may end here. -/
theorem BlockInv.finish {a : Activation} {l : Line} {ls : List Line} {r : Result} {env : Env} (h : BlockInv s)
    (ho : OperationInv s g a) (hr : a.rest = l :: ls) (hl : l.endsWith r) :
    BlockInv (State.finish g a.op r { s with env := env }) where
  params := h.params
  power := h.power
  axes := h.axes
  pin := by rw [finish_log, powerPinLevel_ret]; exact h.pin
  completed := by
    rintro ⟨k, i, r', hmem, hi, hr'⟩
    rw [finish_log] at hmem ⊢
    rw [powerPinLevel_ret]
    rcases List.mem_append.mp hmem with hmem | hmem
    · exact h.completed ⟨k, i, r', hmem, hi, hr'⟩
    · cases List.mem_singleton.mp hmem
      have hpin := ho.pin hi
      rw [hr] at hpin
      exact hpin.resolve_left fun hw => hr' (notReady_of_awaitsPin hl hw)

theorem lineStep_inv (h : s.Inv) : (s.lineStep g).Inv := by
  have hres := lineStep_result g s
  generalize s.lineStep g = t at hres ⊢
  cases hres with
  | stays => exact h
  | drained a hs hr =>
    have hlock := (h.operation hs).lock
    rw [hr] at hlock
    exact h.update_slot (g := g) rfl rfl rfl rfl rfl rfl rfl (fun k hk => by simp [hk]) (by simp)
      fun hl => by simp [hl, lockDisciplined] at hlock
  | ends a l ls r env hs hr hl =>
    have ho := h.operation hs
    have hfree := unlocked_of_endsWith hl (hr ▸ ho.lock)
    exact h.update (g := g) (h.block.finish ho hr hl) rfl id (by rw [finish_log, powerPinLevel_ret]; exact id)
      (fun _ _ => rfl) (fun k hk => by rw [slot_finish, if_neg hk]; rfl) (by simp)
      fun hl => by simp [show s.lock = some g from hl] at hfree
  | moves a l ls env hs hr hl =>
    have ho := h.operation hs
    have hlock := hr ▸ ho.lock
    exact h.update (g := g) ((h.block.write hr ho).congr rfl rfl rfl rfl rfl rfl) (write_params ..) (write_ready g a s l)
      level_mono (fun k hk => write_lock_other hl hlock hk)
      (fun k hk => by rw [slot_setSlot, if_neg hk]; exact slot_congr (write_callers ..) k)
      (fun b hb => by
        rw [slot_setSlot, if_pos rfl] at hb
        cases hb
        exact (ho.next h.params_legal hr hl).mono rfl id rfl id)
      (by simp)

theorem runLines_inv (fuel : Nat) (h : s.Inv) : (s.runLines fuel g).Inv :=
  runLines_keeps (P := State.Inv) (fun _ => lineStep_inv) fuel s h

end

/-! ### The programs of the host operations -/

/-- Every operation begins with its tests still to make. -/
theorem program_guarded {p : Params} {i : Instr} {ls : List Line} (h : program p i = some ls) : guarded ls = true := by
  cases i <;> cases h <;> rfl

theorem program_lockDisciplined {p : Params} {i : Instr} {ls : List Line} (h : program p i = some ls) :
    lockDisciplined false ls = true := by
  cases i <;> cases h <;> rfl

theorem program_awaitsPin {p : Params} {i : Instr} {ls : List Line} (h : program p i = some ls) (hd : drivesPower i = true) :
    awaitsPin ls = true := by
  cases i <;> cases hd <;> cases h <;> rfl

end Sys2Proof.Machine

/-! PROOF. The invariant of an operation just begun, after reset, and along every step (O48, O49). -/

namespace Sys2Proof.Machine

/-- No program holds a selection: the lookup inlines it. -/
theorem program_setAxis {p : Params} {i : Instr} {ls : List Line} (h : program p i = some ls) (j : U32) : .setAxis j ∉ ls := by
  have hall : ls.all (fun | .setAxis _ => false | _ => true) = true := by cases i <;> cases h <;> rfl
  exact fun hj => by cases List.all_eq_true.mp hall _ hj

/-- The frame a line transmits. -/
def Line.frame? : Line → Option Frame
  | .emit f => some f
  | _ => none

theorem mem_frames {ls : List Line} {f : Frame} (h : .emit f ∈ ls) : f ∈ ls.filterMap Line.frame? :=
  List.mem_filterMap.mpr ⟨_, h, rfl⟩

/-- The frames of every program are frames of R91, and motion frames only in the motion commands. -/
theorem program_frames {p : Params} {i : Instr} {ls : List Line} (h : program p i = some ls) :
    ∀ f ∈ ls.filterMap Line.frame?, Sendable p.codes (powerGated i) f := by
  have one {f : Frame} (hf : Sendable p.codes (powerGated i) f) : ∀ x ∈ [f], Sendable p.codes (powerGated i) x :=
    List.forall_mem_singleton.mpr hf
  have after_status {f : Frame} (hf : Sendable p.codes (powerGated i) f) :
      ∀ x ∈ [getStatusFrame p.codes, f], Sendable p.codes (powerGated i) x :=
    List.forall_mem_cons.mpr ⟨getStatus_sendable .., one hf⟩
  cases i with
  | getStatusAll => cases h; exact one (getStatus_sendable ..)
  | isBusy => cases h; exact one (getStatus_sendable ..)
  | getAbsPos => cases h; exact one ⟨.frameGetParamAbsPos, rfl, nofun⟩
  | run dev dir speed => cases h; exact after_status (packRun_sendable ..)
  | move dev dir steps => cases h; exact after_status (packMove_sendable ..)
  | goto dev pos => cases h; exact one (packGoto_sendable ..)
  | gotoDir dev dir pos => cases h; exact one (packGotoDir_sendable ..)
  | goHome => cases h; exact one ⟨.frameGoHome, rfl, fun _ => rfl⟩
  | resetPos => cases h; exact one ⟨.frameResetPos, rfl, nofun⟩
  | softStop => cases h; exact one ⟨.frameSoftStop, rfl, nofun⟩
  | hardStop => cases h; exact one ⟨.frameHardStop, rfl, nofun⟩
  | disableOutputs dev hard =>
    cases h
    cases hard
    · exact one ⟨.frameSoftHiz, rfl, nofun⟩
    · exact one ⟨.frameHardHiz, rfl, nofun⟩
  | applyModelParams dev m =>
    cases h
    exact List.forall_mem_map.mpr (regWrite_sendable p.codes m)
  | waitWhileBusy | init | powerEnable | powerDisable | reset | setActiveModel | setActiveModelByName | getActiveModel =>
    cases h; exact List.forall_mem_nil _
  | _ => cases h

/-- The parts of the invariant hold of an operation just begun. -/
theorem operationInv_begin {s : State} {g : Nat} {i : Instr} {ls : List Line} (hlegal : s.params.legal = true)
    (hp : program s.params i = some ls) (hfree : (s.lock == some g) = false) :
    OperationInv s g ⟨i, 0, 0, none, ls⟩ where
  guarded := .inr (program_guarded hp)
  pending := fun j hj => absurd hj (program_setAxis hp j)
  lock := by rw [hfree]; exact program_lockDisciplined hp
  admitted := by
    by_cases hg : powerGated i = true
    · exact (admitted_iff_of_gated (a := ⟨i, 0, 0, none, ls⟩) hg).mpr ⟨[], hp, nofun, nofun, nofun⟩
    · refine (admitted_iff_of_not_gated (a := ⟨i, 0, 0, none, ls⟩) hg).mpr fun f hf => ?_
      have hs := program_frames hp f (mem_frames hf)
      rw [Bool.eq_false_iff.mpr hg] at hs
      exact hs.not_motion (codes_legal hlegal)
  pin := fun hd => .inl (program_awaitsPin hp hd)

/-! ### Every step keeps the invariant -/

section
variable {s t : State}

theorem scheduled_inv (h : s.Inv) : s.scheduled.Inv := h.congr rfl rfl rfl rfl rfl rfl rfl fun _ => rfl

theorem popCall_inv (h : s.Inv) : s.popCall.Inv := h.congr rfl rfl rfl rfl rfl rfl rfl fun k => popCall_slot s k

theorem deliver_inv (h : s.Inv) (v : Value) : (s.deliver v).Inv := by
  refine h.congr rfl rfl rfl rfl rfl rfl rfl fun k => ?_
  unfold State.deliver
  rw [slot_setCaller]
  split
  next hk => rw [hk]; rfl
  next => rfl

theorem beginCall_inv {g : Nat} {i : Instr} {ls : List Line} (h : s.Inv) (hs : s.slot g = .idle)
    (hp : program s.params i = some ls) : (s.beginCall g i ls).Inv := by
  have hfree : (s.lock == some g) = false := by
    cases hl : s.lock == some g
    · rfl
    · exact absurd hs (h.lock_active g (eq_of_beq hl))
  refine h.update_slot (g := g) rfl rfl rfl rfl rfl rfl rfl (fun k hk => by simp [hk]) (fun a ha => ?_) (by simp)
  rw [slot_beginCall, if_pos rfl] at ha
  cases ha
  exact operationInv_begin h.params_legal hp hfree

end

/-- Settles O49: each line of any caller keeps the invariant, and so does the beginning of a call. -/
theorem stepKeepsInvariant : Obligations.StepKeepsInvariant := by
  intro s t h hstep
  have hpop := popCall_inv (scheduled_inv h)
  cases step_result hstep with
  | waits => exact scheduled_inv h
  | line a => exact lineStep_inv (scheduled_inv h)
  | evaluates v => exact deliver_inv hpop v
  | calls i ls fuel hs _ hp => exact runLines_inv fuel (beginCall_inv hpop (by simpa using hs) hp)

/-- Settles O48: nothing is in progress after reset, and nothing is in the log. -/
theorem resetMeetsInvariant : Obligations.ResetMeetsInvariant := by
  refine inv_of_parts ⟨by decide, nofun, by decide, .inl rfl, ?_⟩ (fun g a hs => by cases hs) nofun
  rintro ⟨_, _, _, h, _⟩
  cases h

end Sys2Proof.Machine

/-! PROOF. Who writes the block's state, traffic and readiness, the state after reset, and what a step runs (O52, O59, O47, O57). -/

namespace Sys2Proof.Machine

/-! ### Who writes the block's state (R21 to R23, R26) -/

/-- Model selection (R232, R233). -/
def selectsModel : Instr → Bool
  | .setActiveModel .. | .setActiveModelByName .. => true
  | _ => false

/-- The line may stand in the operation `i`: what it writes, `i` owns. -/
def ownedBy (i : Instr) : Line → Bool
  | .setReady => decide (i = .init)
  | .switchPower on => decide (i = if on then .powerEnable else .powerDisable)
  | .setAxis _ | .findIndex _ | .findName _ => selectsModel i
  | _ => true

theorem program_owned {p : Params} {i : Instr} {ls : List Line} (h : program p i = some ls) : ∀ l ∈ ls, ownedBy i l = true := by
  have hall : ls.all (ownedBy i) = true := by cases i <;> cases h <;> rfl
  exact List.all_eq_true.mp hall

/-- A line inlines only lines that its operation owns. -/
theorem inlined_owned {i : Instr} {s : State} {l x : Line} (hl : ownedBy i l = true) (h : Inlined s l x) : ownedBy i x = true := by
  cases h with
  | poll dev pollMs left _ h => rcases mem_pollLines h with rfl | rfl | rfl | rfl <;> rfl
  | wait => rfl
  | sleep => rfl
  | apply dev m _ h => rcases mem_applyLines h with rfl | rfl | rfl | ⟨w, -, rfl⟩ <;> rfl
  | select j h => rcases h with rfl | ⟨name, m, rfl, -⟩ <;> exact hl
  | persist => rfl

/-- What differs in `t` from `s`, the operation `i` owns. -/
structure WritesFor (i : Instr) (s t : State) : Prop where
  ready : t.ready ≠ s.ready → i = .init ∧ t.ready = true
  power : t.powerEnabled ≠ s.powerEnabled → i = if t.powerEnabled then .powerEnable else .powerDisable
  axes : t.axis0 ≠ s.axis0 ∨ t.axis1 ≠ s.axis1 → selectsModel i = true

theorem WritesFor.of_same {i : Instr} {s t : State} (hr : t.ready = s.ready) (hp : t.powerEnabled = s.powerEnabled)
    (h0 : t.axis0 = s.axis0) (h1 : t.axis1 = s.axis1) : WritesFor i s t :=
  ⟨absurd hr, absurd hp, fun h => (h.elim (absurd h0) (absurd h1))⟩

theorem WritesFor.trans {i : Instr} {s t u : State} (h : WritesFor i s t) (k : WritesFor i t u) : WritesFor i s u where
  ready := fun hne => by
    by_cases hk : u.ready = t.ready
    · rw [hk] at hne ⊢; exact h.ready hne
    · exact k.ready hk
  power := fun hne => by
    by_cases hk : u.powerEnabled = t.powerEnabled
    · rw [hk] at hne ⊢; exact h.power hne
    · exact k.power hk
  axes := fun hne => by
    by_cases hk : u.axis0 = t.axis0 ∧ u.axis1 = t.axis1
    · rw [hk.1, hk.2] at hne; exact h.axes hne
    · exact k.axes (not_and_or.mp hk)

theorem write_writesFor {g : Nat} {s : State} {a : Activation} {l : Line} {i : Instr} (hl : ownedBy i l = true) :
    WritesFor i s (l.write g a s) := by
  cases l with
  | setReady => exact ⟨fun _ => ⟨of_decide_eq_true hl, rfl⟩, absurd rfl, fun h => (h.elim (absurd rfl) (absurd rfl))⟩
  | switchPower on => exact ⟨absurd rfl, fun _ => of_decide_eq_true hl, fun h => (h.elim (absurd rfl) (absurd rfl))⟩
  | setAxis j => exact ⟨absurd (setAxisModel_ready ..), absurd (setAxisModel_powerEnabled ..), fun _ => hl⟩
  | _ => exact .of_same rfl rfl rfl rfl

/-- In the run of the operation `i` from `s`: so far `i` has written what it owns, and the lines to come are its own. -/
def OwnRun (i : Instr) (g : Nat) (s t : State) : Prop :=
  WritesFor i s t ∧ ∀ a, t.slot g = .active a → ∀ l ∈ a.rest, ownedBy i l = true

theorem lineStep_ownRun {i : Instr} {g : Nat} {s t : State} (h : OwnRun i g s t) : OwnRun i g s (t.lineStep g) := by
  obtain ⟨hw, hown⟩ := h
  have hres := lineStep_result g t
  generalize t.lineStep g = u at hres ⊢
  cases hres with
  | stays => exact ⟨hw, hown⟩
  | drained a hs hr => exact ⟨hw.trans (.of_same rfl rfl rfl rfl), by simp⟩
  | ends a l ls r env hs hr hl => exact ⟨hw.trans (.of_same rfl rfl rfl rfl), by simp⟩
  | moves a l ls env hs hr hl =>
    have hlines := hown a hs
    rw [hr] at hlines
    have hlo := hlines l List.mem_cons_self
    refine ⟨(hw.trans (write_writesFor (g := g) (a := a) hlo)).trans (.of_same rfl rfl rfl rfl), fun b hb x hx => ?_⟩
    rw [slot_setSlot, if_pos rfl] at hb
    cases hb
    rcases mem_following hx with hx | hx
    · exact hlines x (List.mem_cons_of_mem _ hx)
    · exact inlined_owned hlo hx

theorem exec_writesFor {i : Instr} {s t : State} (h : exec i s = .next t) : WritesFor i s t := by
  cases exec_result h with
  | evaluates v => exact .of_same rfl rfl rfl rfl
  | waits => exact .of_same rfl rfl rfl rfl
  | transmits a f => exact .of_same rfl rfl rfl rfl
  | runs ls hs hp =>
    have hbegin : OwnRun i s.cur s (s.beginCall s.cur i ls) := by
      refine ⟨.of_same rfl rfl rfl rfl, fun a ha => ?_⟩
      rw [slot_beginCall, if_pos rfl] at ha
      cases ha
      exact program_owned hp
    exact (runLines_keeps (P := OwnRun i s.cur s) (fun _ => lineStep_ownRun) _ _ hbegin).1

/-- Settles O52: the lines that write `ready`, `power_enabled` and an axis stand only in the programs of their owners. -/
theorem stateWrittenOnlyByItsOwners : Obligations.StateWrittenOnlyByItsOwners := by
  intro s t i h
  obtain ⟨hready, hpower, haxes⟩ := exec_writesFor h
  refine ⟨hready, fun hne => ?_, fun hne => ?_⟩
  · have hi := hpower hne
    split at hi
    next hon => exact .inl ⟨hi, hon⟩
    next hoff => exact .inr ⟨hi, Bool.eq_false_iff.mpr hoff⟩
  · have hi := haxes hne
    cases i with
    | setActiveModel axis index => exact .inl ⟨axis, index, rfl⟩
    | setActiveModelByName axis name => exact .inr ⟨axis, name, rfl⟩
    | _ => cases hi

/-! ### No traffic before the chain is ready (R22) -/

theorem events_tx {g : Nat} {s : State} {a : Activation} {l : Line} (h : ∀ f, l ≠ .emit f) :
    ∀ e ∈ (l.events a s).map (Entry.mk g), e.tx = none := by
  cases l with
  | emit f => exact absurd rfl (h f)
  | _ => simp [Line.events, Entry.tx]

/-- Only `init`'s line sets ready. -/
theorem write_ready_eq {g : Nat} {s : State} {a : Activation} {l : Line} (h : l ≠ .setReady) : (l.write g a s).ready = s.ready := by
  cases l with
  | setReady => exact absurd rfl h
  | setAxis i => exact setAxisModel_ready ..
  | _ => rfl

/-- An operation that cannot transmit while the chain is not ready: it is `init`, or it has its readiness test to come and does
not set ready itself. -/
def quiet (s : State) (a : Activation) : Prop :=
  a.rest <:+ initLines ∨ (s.ready = false ∧ guarded a.rest = true ∧ .setReady ∉ a.rest)

theorem not_emit_of_quiet {s : State} {a : Activation} {l : Line} {ls : List Line} (h : quiet s a) (hr : a.rest = l :: ls)
    (f : Frame) : l ≠ .emit f := by
  rintro rfl
  rcases h with h | ⟨-, hg, -⟩
  · have := h.mem (hr ▸ List.mem_cons_self)
    simp [initLines] at this
  · rw [hr] at hg; cases hg

theorem quiet_next {g : Nat} {s : State} {a : Activation} {l : Line} {ls : List Line} (h : quiet s a) (hr : a.rest = l :: ls)
    (hl : l.passes g s) : quiet (l.write g a s) (l.next s a ls) := by
  rcases h with h | ⟨hready, hg, hset⟩
  · rw [hr] at h
    have hmem : l ∈ initLines := h.mem List.mem_cons_self
    have hsuffix : ls <:+ initLines := (List.suffix_cons l ls).trans h
    simp only [initLines, List.mem_cons, List.not_mem_nil, or_false] at hmem
    rcases hmem with rfl | rfl | rfl <;> exact .inl hsuffix
  · rw [hr] at hg hset
    have hw : (l.write g a s).ready = false := (write_ready_eq fun h => hset (h ▸ List.mem_cons_self)).trans hready
    refine .inr ⟨hw, ?_, fun hx => ?_⟩
    · exact (guarded_following hl (.inr hg)).resolve_left (by rw [hw]; nofun)
    · rcases mem_following hx with hx | hx
      · exact hset (List.mem_cons_of_mem _ hx)
      · cases hx with
        | poll dev pollMs left _ h => rcases mem_pollLines h with h | h | h | h <;> cases h
        | apply dev m _ h => rcases mem_applyLines h with h | h | h | ⟨w, -, h⟩ <;> cases h

theorem quiet_begin {s : State} {i : Instr} {ls : List Line} (hp : program s.params i = some ls) (hready : s.ready = false) :
    quiet s ⟨i, 0, 0, none, ls⟩ := by
  by_cases hi : i = .init
  · subst hi; cases hp; exact .inl (List.suffix_refl _)
  · exact .inr ⟨hready, program_guarded hp, fun hs => hi (of_decide_eq_true (program_owned hp _ hs))⟩

/-- In a run from `s`: nothing has been transmitted, and the operation in progress is quiet. -/
def QuietRun (g : Nat) (s t : State) : Prop :=
  (∃ es, t.log = s.log ++ es ∧ ∀ e ∈ es, e.tx = none) ∧ ∀ a, t.slot g = .active a → quiet t a

theorem lineStep_quietRun {g : Nat} {s t : State} (h : QuietRun g s t) : QuietRun g s (t.lineStep g) := by
  obtain ⟨⟨es, hes, htx⟩, hq⟩ := h
  have hres := lineStep_result g t
  generalize t.lineStep g = u at hres ⊢
  cases hres with
  | stays => exact ⟨⟨es, hes, htx⟩, hq⟩
  | drained a hs hr => exact ⟨⟨es, hes, htx⟩, by simp⟩
  | ends a l ls r env hs hr hl =>
    refine ⟨⟨es ++ [⟨g, .ret a.op r⟩], by simp [hes], fun e he => ?_⟩, by simp⟩
    rcases List.mem_append.mp he with he | he
    · exact htx e he
    · cases List.mem_singleton.mp he; rfl
  | moves a l ls env hs hr hl =>
    have ha := hq a hs
    refine ⟨⟨es ++ (l.events a t).map (Entry.mk g), by simp [State.logAfter, hes], fun e he => ?_⟩, fun b hb => ?_⟩
    · rcases List.mem_append.mp he with he | he
      · exact htx e he
      · exact events_tx (not_emit_of_quiet ha hr) e he
    · rw [slot_setSlot, if_pos rfl] at hb
      cases hb
      exact quiet_next ha hr hl

/-- While the chain is not ready, a line of an operation that keeps the invariant transmits nothing. -/
theorem lineStep_untransmitted {g : Nat} {s : State} (h : s.Inv) (hready : s.ready = false) :
    ∃ es, (s.lineStep g).log = s.log ++ es ∧ ∀ e ∈ es, e.tx = none := by
  have hres := lineStep_result g s
  generalize s.lineStep g = t at hres ⊢
  cases hres with
  | stays => exact ⟨[], by simp⟩
  | drained => exact ⟨[], by simp⟩
  | ends a l ls r => exact ⟨[⟨g, .ret a.op r⟩], rfl, fun e he => by cases List.mem_singleton.mp he; rfl⟩
  | moves a l ls env hs hr hl =>
    refine ⟨_, write_log g a s l, events_tx fun f hf => ?_⟩
    have hg := (h.operation hs).guarded
    rw [hr, hf] at hg
    cases hready.symm.trans (ready_of_emit hg)

theorem step_untransmitted {s t : State} (h : s.Inv) (hready : s.ready = false) (hstep : step s = .next t) :
    ∃ es, t.log = s.log ++ es ∧ ∀ e ∈ es, e.tx = none := by
  cases step_result hstep with
  | waits => exact ⟨[], by simp⟩
  | line a => exact lineStep_untransmitted (scheduled_inv h) hready
  | evaluates v => exact ⟨[], by simp [State.popCall]⟩
  | calls i ls fuel hs _ hp =>
    have hbegin : QuietRun s.nextPick.caller s (s.scheduled.popCall.beginCall s.nextPick.caller i ls) := by
      refine ⟨⟨[], by simp [State.popCall]⟩, fun a ha => ?_⟩
      rw [slot_beginCall, if_pos rfl] at ha
      cases ha
      exact quiet_begin hp hready
    exact (runLines_keeps (P := QuietRun s.nextPick.caller s) (fun _ => lineStep_quietRun) _ _ hbegin).1

/-- Settles O59: a line that transmits stands behind its readiness test, and a call begun unready does not get past that test. -/
theorem transceiveOnlyWhenReady : Obligations.TransceiveOnlyWhenReady := by
  rintro s t h hstep ⟨e, he, htx⟩
  by_contra hready
  obtain ⟨es, hes, hnone⟩ := step_untransmitted h (Bool.eq_false_iff.mpr hready) hstep
  rw [hes, List.drop_left] at he
  exact htx (hnone e he)

/-! ### The state after reset (R43, R294) -/

/-- An operation whose first lines test the device and readiness fails with NotReady on an unready chain. -/
theorem call_notReady {s : State} (hs : s.slot s.cur = .idle) (hready : s.ready = false) (i : Instr) (ls : List Line) :
    call i (.checkReady :: ls) s = .next (s.returned i [] (.err .notReady) 0) := by
  rw [call_idle hs, State.callFuel]
  simp only [runLines_running, line_checkReady, hready, Bool.false_eq_true, if_false,
    runLines_returned]

theorem call_dev_notReady {s : State} (hs : s.slot s.cur = .idle) (hready : s.ready = false) {dev : U32} (hd : dev.toNat < 2)
    (i : Instr) (ls : List Line) :
    call i (.checkDev dev :: .checkReady :: ls) s = .next (s.returned i [] (.err .notReady) 0) := by
  rw [call_idle hs, State.callFuel]
  simp only [runLines_running, line_checkDev (e := ⟨dev.toNat, hd⟩) rfl, line_checkReady, hready, Bool.false_eq_true, if_false,
    runLines_returned]

/-- `wait_while_busy` arms its deadline between the two tests (R166). -/
theorem wait_notReady {s : State} (hs : s.slot s.cur = .idle) (hready : s.ready = false) {dev : U32} (hd : dev.toNat < 2)
    (timeoutMs pollMs : U32) :
    call (.waitWhileBusy dev timeoutMs pollMs) (waitWhileBusyLines dev timeoutMs pollMs) s =
      .next ((s.armedFor (.waitWhileBusy dev timeoutMs pollMs)).returned (.waitWhileBusy dev timeoutMs pollMs) []
        (.err .notReady) 0) := by
  rw [call_idle hs, State.callFuel]
  simp only [waitWhileBusyLines, pollLines, runLines_running, armedFor_cur, armedFor_ready,
    line_checkDev (e := ⟨dev.toNat, hd⟩) rfl, line_armDeadline, List.cons_append, line_checkReady, hready, Bool.false_eq_true, if_false,
    runLines_returned]

/-- Settles O47: by the operations, whose first lines test the device and readiness. -/
theorem resetState : Obligations.ResetState := by
  refine ⟨rfl, rfl, rfl, rfl, rfl, fun _ => rfl, rfl, fun i hi hdev => ?_⟩
  have hs : State.reset.slot State.reset.cur = .idle := rfl
  cases i with
  | getStatusAll => exact call_notReady hs rfl _ _
  | powerEnable => exact call_notReady hs rfl _ _
  | waitWhileBusy dev timeoutMs pollMs => exact wait_notReady hs rfl (hdev dev rfl) _ _
  | isBusy dev | getAbsPos dev | run dev | move dev | goto dev | gotoDir dev | goHome dev | resetPos dev | softStop dev
  | hardStop dev | disableOutputs dev | applyModelParams dev => exact call_dev_notReady hs rfl (hdev dev rfl) _ _
  | _ => cases hi

/-! ### What a step runs (R33, R70, R71, R91, R95, R275, R291) -/

/-- A pure function is no host operation that runs in a slot. -/
theorem runsInSlot_of_isPure {s : State} {i : Instr} (h : i.isPure = true) : runsInSlot i s = false := by
  simp only [Instr.isPure, Bool.and_eq_true, Bool.not_eq_true'] at h
  exact (program_isSome s.params i).trans h.2

theorem runsInSlot_of_isCall {s : State} {i : Instr} (h : i.isCall = true) : runsInSlot i s = true :=
  (program_isSome s.params i).trans h

section
variable {s : State} {i : Instr} {is : List Instr} {a : Activation}

theorem step_active (hs : s.slot s.nextPick.caller = .active a) (hl : s.lockOpen s.nextPick.caller = true) :
    step s = stepLine a s.scheduled := by
  simp only [step, cycle, stepCaller, scheduled_cur, scheduled_slot, scheduled_lockOpen, hs, hl, if_true]

theorem step_active_waits (hs : s.slot s.nextPick.caller = .active a) (hl : s.lockOpen s.nextPick.caller = false) :
    step s = .next s.scheduled := by
  simp only [step, cycle, stepCaller, scheduled_cur, scheduled_slot, scheduled_lockOpen, hs, hl, Bool.false_eq_true, if_false]

theorem step_no_call (hs : s.slot s.nextPick.caller = .idle) (hc : (s.caller s.nextPick.caller).calls = []) :
    step s = .next s.scheduled := by
  simp only [step, cycle, stepCaller, scheduled_cur, scheduled_slot, scheduled_caller, hs, hc]

theorem step_call (hs : s.slot s.nextPick.caller = .idle) (hc : (s.caller s.nextPick.caller).calls = i :: is)
    (hl : (runsInSlot i s && !s.lockOpen s.nextPick.caller) = false) :
    step s = stepCall s.nextPick.whole i s.scheduled.popCall := by
  have hl' : (runsInSlot i s.scheduled && !s.lockOpen s.nextPick.caller) = false := hl
  simp only [step, cycle, stepCaller, scheduled_cur, scheduled_slot, scheduled_caller, scheduled_lockOpen, hs, hc, hl',
    Bool.false_eq_true, if_false]

theorem step_call_waits (hs : s.slot s.nextPick.caller = .idle) (hc : (s.caller s.nextPick.caller).calls = i :: is)
    (hr : runsInSlot i s = true) (hl : s.lockOpen s.nextPick.caller = false) : step s = .next s.scheduled := by
  have hr' : runsInSlot i s.scheduled = true := hr
  simp only [step, cycle, stepCaller, scheduled_cur, scheduled_slot, scheduled_caller, scheduled_lockOpen, hs, hc, hr', hl,
    Bool.not_false, Bool.and_self, if_true]

end

/-- A transmit line is decoded and executed. -/
theorem stepLine_emit {s : State} {a : Activation} {f : Frame} {ls : List Line} {i : Instr} (hr : a.rest = .emit f :: ls)
    (hd : decodeFrame s.params.codes f = .ok i) : stepLine a s = onNext (State.advance s.cur) (exec i s) := by
  simp only [stepLine, hr, stepEmit, hd]

/-- Settles O57: by the branches of the step. -/
theorem stepRunsTheFetchedInstruction : Obligations.StepRunsTheFetchedInstruction := by
  intro s i g
  have hfree (hl : s.lockOpen s.nextPick.caller = true) : (runsInSlot i s && !s.lockOpen s.nextPick.caller) = false := by
    simp [hl]
  refine ⟨fun a f ls hs hr hd hl => ?_, fun is hs hc hl hw => ?_, fun is ls hs hc hl hw hp => ?_, fun is hs hc hpure => ?_,
    fun a hs hl => step_active_waits hs hl, fun is hs hc hcall hl => step_call_waits hs hc (runsInSlot_of_isCall hcall) hl,
    fun hs hc => step_no_call hs hc⟩
  · rw [step_active hs hl]
    exact stepLine_emit (s := s.scheduled) hr hd
  · rw [step_call hs hc (hfree hl), hw, stepCall_whole]
  · rw [step_call hs hc (hfree hl), hw]
    exact stepCall_begins (s := s.scheduled.popCall) hp
  · have hr := runsInSlot_of_isPure (s := s) hpure
    rw [step_call hs hc (by simp [hr])]
    exact stepCall_without_lines (s := s.scheduled.popCall) (by simpa [runsInSlot] using hr) _

end Sys2Proof.Machine

/-! PROOF. A call run whole is the run of its lines (O55). -/

namespace Sys2Proof.Machine

/-! ### Supplied choices of the scheduler change nothing but the draws -/

section
variable (s : State) (ps : List Pick)

@[simp] theorem withPicks_slot (g : Nat) : (s.withPicks ps).slot g = s.slot g := rfl
@[simp] theorem withPicks_params : (s.withPicks ps).params = s.params := rfl
@[simp] theorem withPicks_activeModel (d : Dev) : (s.withPicks ps).activeModel d = s.activeModel d := rfl

theorem withPicks_advance (g : Nat) : (s.withPicks ps).advance g = (s.advance g).withPicks ps := by
  simp only [State.advance, withPicks_slot]
  split <;> rfl

theorem withPicks_onReply (g : Nat) (a : Activation) {k k' : ReadBuf → State} (h : ∀ rx, k' rx = (k rx).withPicks ps) :
    (s.withPicks ps).onReply g a k' = (s.onReply g a k).withPicks ps := by
  unfold State.onReply
  split
  next => rfl
  next => rfl
  next => exact h _

theorem ite_eq_withPicks {c : Prop} [Decidable c] {t t' u u' : State} (ht : t' = t.withPicks ps) (hu : u' = u.withPicks ps) :
    (if c then t' else u') = (if c then t else u).withPicks ps := by
  subst ht hu; split <;> rfl

theorem advance_eq_withPicks {t t' : State} (g : Nat) (ht : t' = t.withPicks ps) : t'.advance g = (t.advance g).withPicks ps := by
  subst ht; exact withPicks_advance ..

theorem withPicks_runLine (g : Nat) (a : Activation) (l : Line) :
    runLine g a l (s.withPicks ps) = (runLine g a l s).withPicks ps := by
  cases l with
  | checkDev i => simp only [runLine]; split <;> rfl
  | checkReady => exact ite_eq_withPicks ps (advance_eq_withPicks ps g rfl) rfl
  | checkPower => exact ite_eq_withPicks ps (advance_eq_withPicks ps g rfl) rfl
  | checkSpeed v => exact ite_eq_withPicks ps rfl (advance_eq_withPicks ps g rfl)
  | checkSteps v => exact ite_eq_withPicks ps rfl (advance_eq_withPicks ps g rfl)
  | checkAxis i => simp only [runLine]; split <;> rfl
  | checkTransport => exact ite_eq_withPicks ps (advance_eq_withPicks ps g (t := s.takeTransportReady) rfl) rfl
  | checkPowerPin =>
    refine ite_eq_withPicks ps rfl (ite_eq_withPicks ps (advance_eq_withPicks ps g (t := s.takePowerPin) rfl) ?_)
    exact show _ = (s.takePowerPin.raise g a .notReady).withPicks ps from rfl
  | checkResetPin => exact ite_eq_withPicks ps (advance_eq_withPicks ps g (t := s.takeResetPin) rfl) rfl
  | tryReady skip => exact ite_eq_withPicks ps (advance_eq_withPicks ps g rfl) rfl
  | acquireLock => exact ite_eq_withPicks ps (advance_eq_withPicks ps g (t := { s with lock := some g }) rfl) rfl
  | releaseLock => exact advance_eq_withPicks ps g rfl
  | emit f => exact ite_eq_withPicks ps (advance_eq_withPicks ps g (t := s.transmit g a f) rfl) rfl
  | needOk => exact withPicks_onReply s ps g a fun _ => withPicks_advance ..
  | testFault =>
    simp only [runLine]
    split
    next => rfl
    next => exact ite_eq_withPicks ps rfl (withPicks_advance ..)
    next => exact withPicks_advance ..
  | returnStatus => exact withPicks_onReply s ps g a fun _ => rfl
  | returnBusy => exact withPicks_onReply s ps g a fun _ => rfl
  | returnPosition => exact withPicks_onReply s ps g a fun _ => rfl
  | armDeadline dev timeoutMs pollMs => exact ite_eq_withPicks ps rfl rfl
  | testPoll dev pollMs left => exact withPicks_onReply s ps g a fun _ => ite_eq_withPicks ps rfl rfl
  | testDeadline dev pollMs left => cases left <;> rfl
  | sleep ms => exact advance_eq_withPicks ps g rfl
  | driveReset level => exact advance_eq_withPicks ps g rfl
  | setReady => exact advance_eq_withPicks ps g rfl
  | switchPower on => exact advance_eq_withPicks ps g rfl
  | rearm axis =>
    simp only [runLine, withPicks_activeModel]
    split
    next => rfl
    next => exact withPicks_advance ..
  | findIndex index => simp only [runLine, withPicks_params]; split <;> rfl
  | findName name => simp only [runLine, withPicks_params]; split <;> rfl
  | setAxis index =>
    refine advance_eq_withPicks ps g ?_
    unfold State.setAxisModel; split <;> rfl
  | persist index => exact advance_eq_withPicks ps g rfl
  | returnModel => simp only [runLine, withPicks_activeModel]; split <;> rfl
  | returnUnit => rfl

theorem withPicks_lineStep (g : Nat) : (s.withPicks ps).lineStep g = (s.lineStep g).withPicks ps := by
  simp only [State.lineStep, withPicks_slot]
  split
  next => rfl
  next a hs =>
    split
    next => rfl
    next l ls hr => exact withPicks_runLine s ps g a l

theorem withPicks_runLines (g : Nat) : ∀ (fuel : Nat) (s : State),
    (s.withPicks ps).runLines fuel g = (s.runLines fuel g).withPicks ps
  | 0, _ => rfl
  | fuel + 1, s => by
    simp only [State.runLines, withPicks_slot]
    split
    next => rfl
    next => rw [withPicks_lineStep, withPicks_runLines g fuel]

end

/-! ### Lines that a step runs to their end -/

/-- Every line that reads an answer comes after a transceive of its operation; `have` says that there was one. -/
def answered : Bool → List Line → Bool
  | _, [] => true
  | _, .emit _ :: ls => answered true ls
  | got, l :: ls => (got || !l.readsReply) && answered got ls

theorem answered_mono : ∀ {got : Bool} {ls : List Line}, answered got ls = true → answered true ls = true
  | true, _, h => h
  | false, [], _ => rfl
  | false, l :: ls, h => by
    cases l with
    | emit f => exact h
    | _ =>
      have hls : answered true ls = true := answered_mono (Bool.and_eq_true_iff.mp h).2
      exact hls

/-- A line that reads no answer may stand anywhere. -/
theorem answered_cons {got : Bool} {l : Line} {ls : List Line} (hl : l.readsReply = false) (h : answered got ls = true) :
    answered got (l :: ls) = true := by
  have hgot : (got || !l.readsReply) = true := by rw [hl]; exact Bool.or_true got
  cases l with
  | emit f => exact answered_mono h
  | _ => exact Bool.and_eq_true_iff.mpr ⟨hgot, h⟩

theorem answered_of_readsReply {got : Bool} {l : Line} {ls : List Line} (hl : l.readsReply = true)
    (h : answered got (l :: ls) = true) : got = true := by
  cases got with
  | true => rfl
  | false => cases l <;> cases hl <;> cases h

theorem answered_poll {got : Bool} {c : Codes} {dev pollMs : U32} {left : Nat} {ls : List Line} (h : answered got ls = true) :
    answered got (pollLines c dev pollMs left ++ ls) = true := by
  have := answered_mono h
  cases got <;> exact this

theorem answered_apply {got : Bool} {c : Codes} {dev : U32} {m : MotorModel} {ls : List Line} (h : answered got ls = true) :
    answered got (applyLines c dev m ++ ls) = true := by
  have := answered_mono h
  cases got <;> exact this

theorem answered_next {s : State} {a : Activation} {l : Line} {ls : List Line}
    (hready : s.ready = true ∨ guarded (l :: ls) = true) (h : answered a.reply.isSome (l :: ls) = true) :
    answered (l.next s a ls).reply.isSome (l.next s a ls).rest = true := by
  cases l with
  | emit f => exact h
  | tryReady skip =>
    simp only [Line.next, Line.following, ready_of_tryReady hready, if_true]
    exact (Bool.and_eq_true_iff.mp h).2
  | armDeadline dev timeoutMs pollMs => exact answered_poll (Bool.and_eq_true_iff.mp h).2
  | testPoll dev pollMs left => exact answered_cons rfl (Bool.and_eq_true_iff.mp h).2
  | testDeadline dev pollMs left => exact answered_cons rfl (answered_poll (Bool.and_eq_true_iff.mp h).2)
  | rearm axis =>
    simp only [Line.next, Line.following]
    split
    · exact answered_apply (Bool.and_eq_true_iff.mp h).2
    · exact (Bool.and_eq_true_iff.mp h).2
  | findIndex index => exact answered_cons rfl (answered_cons rfl (Bool.and_eq_true_iff.mp h).2)
  | findName name =>
    simp only [Line.next, Line.following]
    split
    · exact answered_cons rfl (answered_cons rfl (Bool.and_eq_true_iff.mp h).2)
    · exact (Bool.and_eq_true_iff.mp h).2
  | _ => exact (Bool.and_eq_true_iff.mp h).2

/-- `get_active_model` is at a line of its program, and its axis has a record. -/
def recorded (s : State) (a : Activation) : Prop :=
  .returnModel ∈ a.rest → (∃ axis, a.rest = getActiveModelLines axis ∧ modelMissing axis s = false) ∨
    (a.rest = [.returnModel] ∧ s.activeModel a.dev ≠ none)

/-- No line of the operation stops the machine: its frames decode, its answers are there, its model has a record. -/
structure Runnable (s : State) (a : Activation) : Prop where
  guarded : s.ready = true ∨ guarded a.rest = true
  frames : ∀ f, .emit f ∈ a.rest → ∃ i, decodeFrame s.params.codes f = .ok i
  answers : answered a.reply.isSome a.rest = true
  record : recorded s a

theorem stepLine_eq {s : State} {a : Activation} (h : Runnable s a) (hs : s.slot s.cur = .active a)
    (hl : s.lockOpen s.cur = true) : stepLine a s = .next (s.lineStep s.cur) := by
  unfold stepLine
  split
  next => rfl
  next l ls hr =>
    split
    next f =>
      obtain ⟨i, hi⟩ := h.frames f (hr ▸ List.mem_cons_self)
      exact stepEmit_eq hs hr hl hi
    next =>
      have hreply : ¬ (l.readsReply && a.reply.isNone) = true := fun hrr => by
        obtain ⟨hreads, hnone⟩ := Bool.and_eq_true_iff.mp hrr
        have hsome := answered_of_readsReply hreads (hr ▸ h.answers)
        simp [Option.isNone_iff_eq_none.mp hnone] at hsome
      have hmodel : ¬ (l = .returnModel ∧ s.activeModel a.dev = none) := by
        rintro ⟨rfl, hnone⟩
        rcases h.record (hr ▸ List.mem_cons_self) with ⟨axis, hrest, -⟩ | ⟨-, hsome⟩
        · cases hr.symm.trans hrest
        · exact hsome hnone
      rw [if_neg hreply, if_neg hmodel]

theorem modelMissing_eq_false {s : State} {axis : U32} (h : axis.toNat < 2) (hm : modelMissing axis s = false) :
    s.activeModel ⟨axis.toNat, h⟩ ≠ none := by
  rw [modelMissing, dif_pos (show axis.toNat < Config.nAxes from h)] at hm
  exact fun hnone => by simp [show s.activeModel ⟨axis.toNat, _⟩ = none from hnone] at hm

theorem recorded_next {g : Nat} {s : State} {a : Activation} {l : Line} {ls : List Line} (hr : a.rest = l :: ls)
    (hl : l.passes g s) (h : recorded s a) : recorded (l.write g a s) (l.next s a ls) := by
  intro hm
  rcases mem_following hm with hm | hm
  · rcases h (hr ▸ List.mem_cons_of_mem _ hm) with ⟨axis, hrest, hmissing⟩ | ⟨hrest, -⟩
    · obtain ⟨rfl, rfl⟩ := List.cons.inj (hr.symm.trans hrest)
      refine .inr ⟨rfl, ?_⟩
      have hd : (Line.checkAxis axis).target a.dev = ⟨axis.toNat, hl⟩ := dif_pos hl
      exact (congrArg s.activeModel hd).trans_ne (modelMissing_eq_false hl hmissing)
    · obtain ⟨-, rfl⟩ := List.cons.inj (hr.symm.trans hrest)
      cases hm
  · cases hm with
    | poll dev pollMs left _ h => rcases mem_pollLines h with h | h | h | h <;> cases h
    | apply dev m _ h => rcases mem_applyLines h with h | h | h | ⟨w, -, h⟩ <;> cases h

theorem Runnable.next {g : Nat} {s : State} {a : Activation} {l : Line} {ls : List Line} (hlegal : s.params.codes.legal = true)
    (hr : a.rest = l :: ls) (hl : l.passes g s) (h : Runnable s a) : Runnable (l.write g a s) (l.next s a ls) where
  guarded := guarded_following hl (hr ▸ h.guarded)
  frames := fun f hf => by
    rw [write_params]
    rcases mem_following hf with hf | hf
    · exact h.frames f (hr ▸ List.mem_cons_of_mem _ hf)
    · exact (inlined_emit hf).decodes hlegal
  answers := answered_next (hr ▸ h.guarded) (hr ▸ h.answers)
  record := recorded_next hr hl h.record

theorem program_answered {p : Params} {i : Instr} {ls : List Line} (h : program p i = some ls) : answered false ls = true := by
  cases i <;> cases h <;> rfl

theorem program_returnModel {p : Params} {i : Instr} {ls : List Line} (h : program p i = some ls) (hm : .returnModel ∈ ls) :
    ∃ axis, i = .getActiveModel axis := by
  cases i with
  | getActiveModel axis => exact ⟨axis, rfl⟩
  | _ =>
    have hall : ls.all (fun | .returnModel => false | _ => true) = true := by cases h <;> rfl
    cases List.all_eq_true.mp hall _ hm

theorem runnable_begin {s : State} {i : Instr} {ls : List Line} (hlegal : s.params.codes.legal = true)
    (hp : program s.params i = some ls) (hm : ∀ axis, i = .getActiveModel axis → modelMissing axis s = false) :
    Runnable s ⟨i, 0, 0, none, ls⟩ where
  guarded := .inr (program_guarded hp)
  frames := fun f hf => (program_frames hp f (mem_frames hf)).decodes hlegal
  answers := program_answered hp
  record := fun hr => by
    obtain ⟨axis, rfl⟩ := program_returnModel hp hr
    cases hp
    exact .inl ⟨axis, rfl, hm axis rfl⟩

/-! ### A run of lines is steps of one caller -/

@[simp] theorem write_cur (g : Nat) (a : Activation) (s : State) (l : Line) : (l.write g a s).cur = s.cur := by
  cases l <;> simp [Line.write]

theorem write_lockOpen {g : Nat} {a : Activation} {s : State} {l : Line} (h : s.lockOpen g = true) :
    (l.write g a s).lockOpen g = true := by
  cases l with
  | acquireLock => exact beq_self_eq_true g
  | releaseLock => rfl
  | setAxis i => simpa [State.lockOpen, Line.write] using h
  | _ => exact h

/-- The current caller can run its operation, if it has one, line by line to its end. -/
structure Uninterrupted (g : Nat) (s : State) : Prop where
  cur : s.cur = g
  lock : s.lockOpen g = true
  codes : s.params.codes.legal = true
  operation : ∀ a, s.slot g = .active a → Runnable s a

theorem lineStep_uninterrupted {g : Nat} {s : State} (h : Uninterrupted g s) : Uninterrupted g (s.lineStep g) := by
  have hres := lineStep_result g s
  generalize s.lineStep g = t at hres ⊢
  cases hres with
  | stays => exact h
  | drained a hs hr => exact ⟨h.cur, h.lock, h.codes, by simp⟩
  | ends a l ls r env hs hr hl => exact ⟨h.cur, h.lock, h.codes, by simp⟩
  | moves a l ls env hs hr hl =>
    refine ⟨(write_cur ..).trans h.cur, write_lockOpen h.lock, (congrArg (·.codes.legal) (write_params ..)).trans h.codes,
      fun b hb => ?_⟩
    rw [slot_setSlot, if_pos rfl] at hb
    cases hb
    obtain ⟨hguarded, hframes, hanswers, hrecord⟩ := (h.operation a hs).next h.codes hr hl
    exact ⟨hguarded, hframes, hanswers, hrecord⟩

/-- The step that the scheduler's choice of one line of `g` makes is that line. -/
theorem step_withPicks_line {g : Nat} {s : State} {a : Activation} (h : Uninterrupted g s) (hs : s.slot g = .active a)
    (ps : List Pick) : step (s.withPicks (⟨g, false⟩ :: ps)) = .next ((s.lineStep g).withPicks ps) := by
  obtain rfl := h.cur
  obtain ⟨hguarded, hframes, hanswers, hrecord⟩ := h.operation a hs
  have hrun : Runnable (s.withPicks ps) a := ⟨hguarded, hframes, hanswers, hrecord⟩
  rw [← withPicks_lineStep, step_active (s := s.withPicks (⟨s.cur, false⟩ :: ps)) hs h.lock]
  exact stepLine_eq hrun hs h.lock

/-- What a run of lines leads to, as many single-line steps lead to. -/
theorem run_of_runLines {g : Nat} : ∀ (fuel : Nat) {s : State}, Uninterrupted g s →
    ∃ n, Host.Core.run Sys2Proof.core n (s.withPicks (List.replicate n ⟨g, false⟩)) = .next ((s.runLines fuel g).withPicks [])
  | 0, _, _ => ⟨0, rfl⟩
  | fuel + 1, s, h => by
    cases hs : s.slot g with
    | idle => exact ⟨0, by simp only [State.runLines, hs]; rfl⟩
    | active a =>
      obtain ⟨n, hn⟩ := run_of_runLines fuel (lineStep_uninterrupted h)
      refine ⟨n + 1, ?_⟩
      have hstep : Sys2Proof.core.step (s.withPicks (List.replicate (n + 1) ⟨g, false⟩)) = _ := step_withPicks_line h hs _
      simp only [Host.Core.run, hstep, State.runLines, hs]
      exact hn

/-- An idle caller `g` is chosen to make its next call `i`, which does not wait for the lock. -/
theorem step_withPicks_call {g : Nat} {s : State} {i : Instr} {is : List Instr} (hs : s.slot g = .idle)
    (hc : (s.caller g).calls = i :: is) (hl : (runsInSlot i s && !s.lockOpen g) = false) (whole : Bool) (ps : List Pick) :
    step (s.withPicks (⟨g, whole⟩ :: ps)) = stepCall whole i ((State.popCall { s with cur := g }).withPicks ps) :=
  step_call (s := s.withPicks (⟨g, whole⟩ :: ps)) hs hc hl

/-- An operation begun and run line by line ends where its whole call does. -/
theorem run_of_call {g : Nat} {s : State} {i : Instr} {is : List Instr} {ls : List Line} (hlegal : s.params.codes.legal = true)
    (hs : s.slot g = .idle) (hc : (s.caller g).calls = i :: is) (hl : s.lockOpen g = true) (hp : program s.params i = some ls)
    (hm : ∀ axis, i = .getActiveModel axis → modelMissing axis s = false) (fuel : Nat) :
    ∃ n, Host.Core.run Sys2Proof.core n (s.withPicks (List.replicate n ⟨g, false⟩)) =
      .next ((((State.popCall { s with cur := g }).beginCall g i ls).runLines fuel g).withPicks []) := by
  have hrun : Uninterrupted g ((State.popCall { s with cur := g }).beginCall g i ls) := by
    refine ⟨rfl, hl, hlegal, fun a ha => ?_⟩
    rw [slot_beginCall, if_pos rfl] at ha
    cases ha
    obtain ⟨hguarded, hframes, hanswers, hrecord⟩ := runnable_begin hlegal hp hm
    exact ⟨hguarded, hframes, hanswers, hrecord⟩
  obtain ⟨n, hn⟩ := run_of_runLines fuel hrun
  refine ⟨n + 1, ?_⟩
  have hstep : Sys2Proof.core.step (s.withPicks (List.replicate (n + 1) ⟨g, false⟩)) =
      .next (((State.popCall { s with cur := g }).beginCall g i ls).withPicks (List.replicate n ⟨g, false⟩)) :=
    (step_withPicks_call hs hc (by simp [hl]) false _).trans (stepCall_begins hp)
  simp only [Host.Core.run, hstep]
  exact hn

/-- One step that the choice of one line makes is a run. -/
theorem run_one {g : Nat} {s t : State} (h : step (s.withPicks [⟨g, false⟩]) = .next t) :
    ∃ n, Host.Core.run Sys2Proof.core n (s.withPicks (List.replicate n ⟨g, false⟩)) = .next t := by
  refine ⟨1, ?_⟩
  have hstep : Sys2Proof.core.step (s.withPicks (List.replicate 1 ⟨g, false⟩)) = .next t := h
  simp only [Host.Core.run, hstep]

/-- Settles O55: a call that waits, or is of a pure function, is the same step either way; a host operation begins, and then each
of its lines is one step. -/
theorem wholeCallIsItsLines : Obligations.WholeCallIsItsLines := by
  intro s t g hlegal hs h
  cases hc : (s.caller g).calls with
  | nil =>
    rw [step_no_call (s := s.withPicks [⟨g, true⟩]) hs hc] at h
    exact run_one ((step_no_call (s := s.withPicks [⟨g, false⟩]) hs hc).trans h)
  | cons i is =>
    cases hl : runsInSlot i s && !s.lockOpen g with
    | true =>
      obtain ⟨hr, hlock⟩ := Bool.and_eq_true_iff.mp hl
      have hlock : s.lockOpen g = false := by simpa using hlock
      rw [step_call_waits (s := s.withPicks [⟨g, true⟩]) hs hc hr hlock] at h
      exact run_one ((step_call_waits (s := s.withPicks [⟨g, false⟩]) hs hc hr hlock).trans h)
    | false =>
      rw [step_withPicks_call hs hc hl, stepCall_whole] at h
      have hidle : ((State.popCall { s with cur := g }).withPicks []).slot g = .idle := (popCall_slot ..).trans hs
      rcases exec_idle hidle h with ⟨hp, -⟩ | ⟨ls, hp, hm, rfl⟩
      · have hcall := stepCall_without_lines (s := (State.popCall { s with cur := g }).withPicks []) hp false
        exact run_one (((step_withPicks_call hs hc hl false []).trans hcall).trans h)
      · have hlock : s.lockOpen g = true := by simpa [runsInSlot, show program s.params i = some ls from hp] using hl
        obtain ⟨n, hn⟩ := run_of_call hlegal hs hc hlock hp hm
          (State.callFuel ((State.popCall { s with cur := g }).withPicks []))
        exact ⟨n, hn.trans (congrArg Host.Outcome.next (withPicks_runLines [] g _ _).symm)⟩

end Sys2Proof.Machine

/-! PROOF. The lock: frames that wait for it, and its release by the reset sequence that holds it (O11, O54). -/

namespace Sys2Proof.Machine

/-! ### Frames outside an operation, and frames that wait (R71, R91) -/

/-- Which instructions are frames does not depend on the codes. -/
theorem encodeFrame_isSome (c : Codes) (i : Instr) : (encodeFrame c i).isSome = i.isFrame := by
  cases i <;> rfl

/-- Settles O11: a frame is the transmit line of the operation in progress, which looks at the lock. -/
theorem framesWaitForTheLock : Obligations.FramesWaitForTheLock := by
  intro i s hframe
  obtain ⟨f, hf⟩ := Option.isSome_iff_exists.mp ((encodeFrame_isSome s.params.codes i).trans hframe)
  rw [exec_of_encodeFrame hf]
  refine ⟨fun hs => emitFrame_idle hs f, fun a hs hl => ?_⟩
  rw [emitFrame_active hs, hl]
  rfl

/-! ### The window in which a caller holds the lock (R71, R226) -/

/-- The lines of the reset sequence from acquiring the lock to releasing it. -/
inductive WindowLine : Line → Prop
  | drive (level : Level) : WindowLine (.driveReset level)
  | sleep (ms : Nat) : WindowLine (.sleep ms)
  | release : WindowLine .releaseLock

section
variable {g : Nat} {s : State} {a : Activation} {l : Line} {ls : List Line}

/-- Who holds the lock is at a line of the window. -/
theorem windowLine_of_held (h : lockDisciplined true (l :: ls) = true) : WindowLine l := by
  cases l with
  | driveReset level => exact .drive level
  | sleep ms => exact .sleep ms
  | releaseLock => exact .release
  | _ => cases h

/-- A line of the window transmits nothing and reads no answer, so a step runs it as it is. -/
theorem stepLine_window (hw : WindowLine l) (hr : a.rest = l :: ls) : stepLine a s = .next (s.lineStep s.cur) := by
  cases hw <;> simp [stepLine, hr, Line.readsReply]

/-- A line of the window releases the lock, or keeps it and goes on to the next line of the list. -/
theorem lineStep_window (hw : WindowLine l) (hs : s.slot g = .active a) (hr : a.rest = l :: ls)
    (hd : lockDisciplined true (l :: ls) = true) :
    (s.lineStep g).lock = none ∨ ((s.lineStep g).lock = s.lock ∧
      (s.lineStep g).slot g = .active { a with k := a.k + 1, rest := ls } ∧ lockDisciplined true ls = true) := by
  have goesOn (e : Event) : (s.record g e).slot g = .active a := (slot_record ..).trans hs
  rw [lineStep_cons hs hr]
  cases hw with
  | drive level =>
    exact .inr ⟨advance_lock .., by simp [runLine, advance_of_active (goesOn _), hr], (Bool.and_eq_true_iff.mp hd).2⟩
  | sleep ms => exact .inr ⟨advance_lock .., by simp [runLine, advance_of_active (goesOn _), hr], hd⟩
  | release => exact .inl (advance_lock ..)

/-- The step of the lock's holder is its line. -/
theorem step_withPicks_window (hlock : s.lock = some g) (hs : s.slot g = .active a) (hw : WindowLine l) (hr : a.rest = l :: ls)
    (ps : List Pick) :
    step (s.withPicks (⟨g, false⟩ :: ps)) = .next ((State.lineStep g { s with cur := g }).withPicks ps) := by
  have hopen : s.lockOpen g = true := by simp [State.lockOpen, hlock]
  rw [← withPicks_lineStep, step_active (s := s.withPicks (⟨g, false⟩ :: ps)) hs hopen]
  exact stepLine_window hw hr

end

theorem run_succ_of_step {n : Nat} {s t : State} (h : step s = .next t) :
    Host.Core.run Sys2Proof.core (n + 1) s = Host.Core.run Sys2Proof.core n t := by
  have hstep : Sys2Proof.core.step s = .next t := h
  simp only [Host.Core.run, hstep]

/-- Who holds the lock releases it, by induction on the lines left: each but the release leads to the next. -/
theorem run_releases {g : Nat} : ∀ (ls : List Line) {s : State} {a : Activation}, s.lock = some g → s.slot g = .active a →
    a.rest = ls → lockDisciplined true ls = true → ∃ n ≤ ls.length, ∃ t,
      Host.Core.run Sys2Proof.core n (s.withPicks (List.replicate n ⟨g, false⟩)) = .next t ∧ t.lock = none
  | [], _, _, _, _, _, hd => by cases hd
  | l :: ls, s, a, hlock, hs, hr, hd => by
    have hw := windowLine_of_held hd
    have hstep := step_withPicks_window hlock hs hw hr
    rcases lineStep_window (s := { s with cur := g }) hw hs hr hd with hfree | ⟨hheld, hnext, hd'⟩
    · exact ⟨1, by simp, _, run_succ_of_step (n := 0) (hstep []), hfree⟩
    · obtain ⟨n, hn, t, hrun, hfree⟩ := run_releases ls (hheld.trans hlock) hnext rfl hd'
      exact ⟨n + 1, Nat.succ_le_succ hn, t, (run_succ_of_step (hstep _)).trans hrun, hfree⟩

/-- Settles O54: the holder's lines keep the lock's discipline. -/
theorem lockIsReleased : Obligations.LockIsReleased := by
  intro s g a hinv hlock hs
  have hd := (hinv.operation hs).lock
  rw [hlock, beq_self_eq_true] at hd
  exact run_releases a.rest hlock hs rfl hd

end Sys2Proof.Machine

/-! PROOF. The window between a RUN's checks and its frame (O58). -/

namespace Sys2Proof.Machine

/-! ### The window from check to transmit (R72, R301; `95_test_vectors.md` P7) -/

/-- A reply whose bytes are all 0: no fault is latched. -/
def zeroReply : Answer := .ok ⟨⟨⟨0, 0, 0, 0⟩, ⟨0, 0, 0, 0⟩⟩, ⟨⟨0, 0, 0, 0⟩, ⟨0, 0, 0, 0⟩⟩⟩

/-- Caller 0 is to call `run 0, 0, 100` and caller 1 `power_disable`; the scheduler lets caller 0 begin and make its checks up to
the RUN frame (8 steps), caller 1 run its call (4 steps), and then caller 0 go on. -/
def windowStart : State :=
  { State.reset with
    ready := true
    powerEnabled := true
    callers := [⟨.idle, none, [.run 0 0 100]⟩, ⟨.idle, none, [.powerDisable]⟩]
    env := { Env.free with
      answers := ⟨[zeroReply, zeroReply], 0⟩
      powerPin := ⟨[true], 0⟩
      picks := ⟨List.replicate 8 ⟨0, false⟩ ++ List.replicate 4 ⟨1, false⟩ ++ [⟨0, false⟩], 0⟩ } }

/-- Caller 0's operation in the window: its checks are done, and the RUN frame is its next line. -/
def windowRun : Activation :=
  ⟨.run 0 0 100, 7, 0, some zeroReply, [.emit (packRun 0 0 100), .needOk, .returnUnit]⟩

/-- In the window: caller 1's `power_disable` has returned, and caller 0 is to step. -/
def windowOpen : State :=
  { windowStart with
    powerEnabled := false
    callers := [⟨.active windowRun, none, []⟩, ⟨.idle, some (.ok .unit), []⟩]
    log := [⟨0, exchange (statusBuf Config.refCodes) zeroReply⟩, ⟨1, .powerPin false⟩, ⟨1, .ret .powerDisable (.ok .unit)⟩]
    env := { Env.free with answers := ⟨[zeroReply], 0⟩, picks := ⟨[⟨0, false⟩], 0⟩ }
    cur := 1 }

theorem windowStart_idle : ∀ g, windowStart.slot g = .idle
  | 0 | 1 | _ + 2 => rfl

theorem windowStart_inv : windowStart.Inv := by
  refine inv_of_parts ⟨by decide, fun _ => rfl, by decide, .inl rfl, ?_⟩ (fun g a hs => ?_) nofun
  · rintro ⟨_, _, _, h, _⟩
    cases h
  · cases (windowStart_idle g).symm.trans hs

theorem run_windowStart : Host.Core.run Sys2Proof.core 12 windowStart = .next windowOpen := rfl

/-- The step at the transmit line decodes the frame and sends it: no line looks at the power flag again. -/
theorem step_windowOpen : step windowOpen = .next (windowOpen.scheduled.lineStep 0) :=
  (step_active (a := windowRun) rfl rfl).trans
    (stepEmit_eq (s := windowOpen.scheduled) (i := .frameRun0 100) rfl rfl rfl rfl)

/-- Settles O58: the window is open after 12 steps, and the next step sends the frame. -/
theorem checkToTransmitWindow : Obligations.CheckToTransmitWindow :=
  ⟨windowStart, windowOpen, windowOpen.scheduled.lineStep 0, 12, windowStart_inv, rfl, windowStart_idle, rfl, run_windowStart, rfl,
    by simp [windowOpen], step_windowOpen, replyTo (singleBuf Config.refCodes 0 ⟨0x50#8, 0#8, 0#8, 0x64#8⟩) zeroReply, rfl⟩

end Sys2Proof.Machine

/-! PROOF. The encoding of frames and what the wire frames transmit (O1 to O10). -/

namespace Sys2Proof.Machine

/-! ### The decoder against the encoder (`30_encoding.md` R81 to R92) -/

/-- Settles O1: each opcode byte is that of one row of the map, and the row reads its format back. -/
theorem decodeOfEncode : Obligations.DecodeOfEncode := fun _ _ _ hl h => decodeFrame_of_encodeFrame hl h

/-- Settles O2: each row of the map reads an instruction only from its own encoding. -/
theorem encodeOfDecode : Obligations.EncodeOfDecode := fun _ _ _ h => encodeFrame_of_decodeFrame h

/-- Settles O3: the decoder run on each of the words. -/
theorem decodesWrittenWords : Obligations.DecodesWrittenWords := by
  unfold Obligations.DecodesWrittenWords
  decide

/-! ### The opcode bytes (R91) -/

/-- The frames that go out in a buffer with a clock-out phase (R89, R90). -/
def twoPhase : Instr → Bool
  | .frameGetStatus | .frameGetParamAbsPos => true
  | _ => false

/-- Every other frame starts with an opcode byte of the single-phase ones (R88). -/
theorem singleOpcodes_of_encodeFrame {c : Codes} {i : Instr} {f : Frame} (h : encodeFrame c i = some f)
    (hi : twoPhase i = false) : f.b0 ∈ c.singleOpcodes := by
  cases i <;> cases hi <;> cases h <;> simp [Codes.singleOpcodes, fmtNoarg, fmtReg8, fmtReg16, fmtDir20, fmtDir22]

theorem emittedOpcodes_of_encodeFrame {c : Codes} {i : Instr} {f : Frame} (h : encodeFrame c i = some f) :
    f.b0 ∈ c.emittedOpcodes := by
  cases hi : twoPhase i with
  | false => exact List.mem_cons_of_mem _ (List.mem_cons_of_mem _ (singleOpcodes_of_encodeFrame h hi))
  | true => cases i <;> cases hi <;> cases h <;> simp [Codes.emittedOpcodes, fmtNoarg]

/-- Every row of the map reads its opcode byte followed by three zero bytes: no format lets 0 be a reserved value. -/
theorem opcodeMap_reads_zeros (c : Codes) : ∀ r ∈ opcodeMap c, ∃ i, r.read ⟨r.opcode, 0#8, 0#8, 0#8⟩ = .ok i := by
  simp only [opcodeMap, List.forall_mem_cons, List.not_mem_nil, IsEmpty.forall_iff, implies_true, and_true]
  and_intros
  all_goals exact ⟨_, if_pos (by simp)⟩

theorem exists_encodeFrame_of_opcode {c : Codes} {b : Byte} (h : b ∈ c.emittedOpcodes) :
    ∃ i f, encodeFrame c i = some f ∧ f.b0 = b := by
  rw [← Laws.RoundTrip.opcodeMap_opcodes] at h
  obtain ⟨r, hr, rfl⟩ := List.mem_map.mp h
  obtain ⟨i, hi⟩ := opcodeMap_reads_zeros c r hr
  exact ⟨i, _, opcodeMap_faithful c r hr _ i rfl hi, rfl⟩

/-- Settles O4: the reference bytes are a reordering of the table's, and the map's rows are those of the encoder. -/
theorem opcodeBytesAreTheTables : Obligations.OpcodeBytesAreTheTables :=
  ⟨rfl, by decide, fun _ => List.Perm.mem_iff (by decide), by decide, fun _ _ _ => emittedOpcodes_of_encodeFrame,
    fun _ _ => exists_encodeFrame_of_opcode⟩

/-! ### The formats as words (R81, R83 to R87) -/

theorem fmtReg16_eq_ofWord (b : Byte) (v : BitVec 16) : fmtReg16 b v = Frame.ofWord (b ++ v ++ 0#8) := by
  symm
  simp only [Frame.ofWord, fmtReg16, Frame.mk.injEq]
  exact ⟨(BitVec.extractLsb'_append_eq_of_le (by decide)).trans BitVec.extractLsb'_append_eq_left,
    (BitVec.extractLsb'_append_eq_of_le (by decide)).trans (BitVec.extractLsb'_append_eq_of_add_le (by decide)),
    (BitVec.extractLsb'_append_eq_of_le (by decide)).trans (BitVec.extractLsb'_append_eq_of_add_le (by decide)),
    BitVec.extractLsb'_append_eq_right⟩

/-- A byte made of `p` fixed bits and the top `q` bits of a value that goes on for two more bytes. -/
theorem extract_across {n p q : Nat} (b : BitVec n) (z : BitVec p) (v : BitVec (q + 16)) :
    (b ++ z ++ v).extractLsb' 16 (p + q) = z ++ v.extractLsb' 16 q := by
  ext i hi
  simp only [BitVec.getElem_extractLsb', BitVec.getElem_append, BitVec.getLsbD_append]
  split <;> grind

theorem fmtDir20_eq_ofWord (b : Byte) (v : BitVec 20) : fmtDir20 b v = Frame.ofWord (b ++ 0#4 ++ v) := by
  symm
  simp only [Frame.ofWord, fmtDir20, Frame.mk.injEq]
  exact ⟨(BitVec.extractLsb'_append_eq_of_le (by decide)).trans BitVec.extractLsb'_append_eq_left, extract_across b 0#4 v,
    BitVec.extractLsb'_append_eq_of_add_le (by decide), BitVec.extractLsb'_append_eq_of_add_le (by decide)⟩

theorem fmtDir22_eq_ofWord (b : Byte) (v : BitVec 22) : fmtDir22 b v = Frame.ofWord (b ++ 0#2 ++ v) := by
  symm
  simp only [Frame.ofWord, fmtDir22, Frame.mk.injEq]
  exact ⟨(BitVec.extractLsb'_append_eq_of_le (by decide)).trans BitVec.extractLsb'_append_eq_left, extract_across b 0#2 v,
    BitVec.extractLsb'_append_eq_of_add_le (by decide), BitVec.extractLsb'_append_eq_of_add_le (by decide)⟩

/-! ### The transceive of a wire frame (R88 to R91) -/

theorem transmit_eq_sent (s : State) (a : Activation) (f : Frame) :
    s.transmit s.cur a f = s.sent a (txOf s.params.codes a.dev f) := rfl

section
variable {s : State} {a : Activation} {i : Instr} {f : Frame}

/-- A frame that can be transmitted goes out in its buffer. -/
theorem exec_sent (h : s.canTransmit a) (hf : encodeFrame s.params.codes i = some f) :
    exec i s = .next (s.sent a (txOf s.params.codes a.dev f)) := by
  obtain ⟨hs, hl, -⟩ := h
  rw [exec_of_encodeFrame hf, emitFrame_active hs, if_pos hl, transmit_eq_sent]

/-- A single-phase frame goes out in the operation's slot of an 8-byte buffer. -/
theorem exec_sent_single (h : s.canTransmit a) (hf : encodeFrame s.params.codes i = some f) (hi : twoPhase i = false) :
    exec i s = .next (s.sent a (singleBuf s.params.codes a.dev f)) := by
  have ⟨_, _, hlegal⟩ := h
  rw [exec_sent h hf, txOf_single hlegal _ (singleOpcodes_of_encodeFrame hf hi)]

end

/-- Settles O5: format DIR20 under the two opcode bytes of RUN. -/
theorem runFramesTransmit : Obligations.RunFramesTransmit := fun _ _ v h =>
  ⟨exec_sent_single h (congrArg some (fmtDir20_eq_ofWord Config.opcRun v)) rfl,
    exec_sent_single h (congrArg some (fmtDir20_eq_ofWord (Config.opcRun ||| 1#8) v)) rfl⟩

/-- Settles O6: format DIR22 under the two opcode bytes of MOVE. -/
theorem moveFramesTransmit : Obligations.MoveFramesTransmit := fun _ _ v h =>
  ⟨exec_sent_single h (congrArg some (fmtDir22_eq_ofWord Config.opcMove v)) rfl,
    exec_sent_single h (congrArg some (fmtDir22_eq_ofWord (Config.opcMove ||| 1#8) v)) rfl⟩

/-- Settles O7: formats ABS22 and DIR22, which lay out their 22 bits alike. -/
theorem gotoFramesTransmit : Obligations.GotoFramesTransmit := fun _ _ v h =>
  ⟨exec_sent_single h (congrArg some (fmtDir22_eq_ofWord _ v)) rfl,
    exec_sent_single h (congrArg some (fmtDir22_eq_ofWord _ v)) rfl,
    exec_sent_single h (congrArg some (fmtDir22_eq_ofWord _ v)) rfl⟩

/-- Settles O8: format NOARG of each single-phase command. -/
theorem argumentFreeFramesTransmit : Obligations.ArgumentFreeFramesTransmit := fun _ _ h =>
  ⟨exec_sent_single h rfl rfl, exec_sent_single h rfl rfl, exec_sent_single h rfl rfl, exec_sent_single h rfl rfl,
    exec_sent_single h rfl rfl, exec_sent_single h rfl rfl, exec_sent_single h rfl rfl⟩

/-- Settles O9: format REG8 of seven registers, REG16 of three. -/
theorem registerFramesTransmit : Obligations.RegisterFramesTransmit := fun _ _ _ w h =>
  ⟨exec_sent_single h rfl rfl, exec_sent_single h rfl rfl, exec_sent_single h rfl rfl, exec_sent_single h rfl rfl,
    exec_sent_single h rfl rfl, exec_sent_single h rfl rfl, exec_sent_single h rfl rfl,
    exec_sent_single h (congrArg some (fmtReg16_eq_ofWord _ w)) rfl,
    exec_sent_single h (congrArg some (fmtReg16_eq_ofWord _ w)) rfl,
    exec_sent_single h (congrArg some (fmtReg16_eq_ofWord _ w)) rfl⟩

/-- Settles O10: the opcode bytes of the two reads select their buffers, GET_STATUS that of every slot. -/
theorem twoPhaseFramesTransmit : Obligations.TwoPhaseFramesTransmit := by
  intro s a h
  have ⟨_, _, hlegal⟩ := h
  constructor
  · exact txOf_status s.params.codes a.dev ▸ exec_sent h rfl
  · exact txOf_position hlegal a.dev ▸ exec_sent h rfl

end Sys2Proof.Machine

/-! PROOF. What the pure functions give, and the frame codec (O12 to O20). -/

namespace Sys2Proof.Machine

/-! ### What a pure function gives (R124) -/

/-- The value of a pure function, from the opcode parameters of R7. -/
def pureValue (c : Codes) : Instr → Option Value
  | .packRun dev dir speedRaw => some (.frame (packRun dev dir speedRaw))
  | .packMove dev dir stepsRaw => some (.frame (packMove dev dir stepsRaw))
  | .packGoto dev absPos => some (.frame (packGoto c dev absPos))
  | .packGotoDir dev dir absPos => some (.frame (packGotoDir c dev dir absPos))
  | .packNoarg dev opcode => some (.frame (packNoarg dev opcode))
  | .packGetStatusOpcodes => some (.chainBuf (packGetStatusOpcodes c))
  | .packRegisterWrite1 dev opcode value => some (.frame (packRegisterWrite1 dev opcode value))
  | .packRegisterWrite2 dev opcode value => some (.frame (packRegisterWrite2 dev opcode value))
  | .packRegisterWrite3 dev opcode value => some (.frame (packRegisterWrite3 dev opcode value))
  | .chainSingle dev frame => some (.chainBuf (chainSingle c dev frame))
  | .withClockout cb => some (.readBuf (withClockout c cb))
  | .parseStatus reply dev => some (.u16 (parseStatus reply dev))
  | .parseParam22 reply dev => some (.position (parseParam22 reply dev))
  | .encodeMaxSpeed stepsPerSec => some (.u16 (encodeMaxSpeed stepsPerSec))
  | .encodeAccDec stepsPerSec2 => some (.u16 (encodeAccDec stepsPerSec2))
  | .encodeStallThresholdMa ma => some (.u8 (encodeStallThresholdMa ma))
  | .encodeOcdThresholdMa ma => some (.u8 (encodeOcdThresholdMa ma))
  | .encodeMicrostepExponent divisor => some (.u8 (encodeMicrostepExponent divisor))
  | .decodeCompact status => some (.text (decodeCompact status))
  | .decodeVerbose status => some (.text (decodeVerbose status))
  | _ => none

/-- A pure function gives its value to the current caller and changes nothing else (D39). -/
theorem exec_of_pureValue {s : State} {i : Instr} {v : Value} (h : pureValue s.params.codes i = some v) :
    exec i s = .next (s.given v) := by
  cases i <;> cases h <;> rfl

theorem pureValue_isSome (c : Codes) (i : Instr) : (pureValue c i).isSome = i.isPure := by
  cases i <;> rfl

/-- Settles O20: the value is `pureValue`'s, which takes the opcode parameters and no state. -/
theorem pureFunctionsIgnoreState : Obligations.PureFunctionsIgnoreState := fun _ hi =>
  ⟨fun c => (pureValue c _).get ((pureValue_isSome c _).trans hi), fun _ => exec_of_pureValue (Option.some_get _).symm⟩

/-! ### The number in bytes 1 to 3 of a frame (R100 to R103, R108) -/

/-- The number that bytes 1 to 3 of a frame hold, big-endian. -/
def frameOperand (f : Frame) : Nat := f.b1.toNat * 65536 + f.b2.toNat * 256 + f.b3.toNat

/-- The low `16 + q` bits of a value, split into bytes. -/
theorem frameOperand_split {n q : Nat} (b : Byte) (v : BitVec n) (hq : q ≤ 8) :
    frameOperand ⟨b, (v.extractLsb' 16 q).setWidth 8, v.extractLsb' 8 8, v.extractLsb' 0 8⟩ = v.toNat % 2 ^ (16 + q) := by
  rw [frameOperand, BitVec.toNat_setWidth_of_le hq, Nat.pow_add, Nat.mod_mul]
  simp only [BitVec.extractLsb'_toNat, Nat.shiftRight_eq_div_pow]
  omega

theorem frameOperand_frame22 (b : Byte) (v : BitVec 22) : frameOperand (frame22 b v) = v.toNat :=
  (frameOperand_split b v (by decide)).trans (Nat.mod_eq_of_lt v.isLt)

theorem frameOperand_packRun (d : Dev) (dir : U8) (v : U32) : frameOperand (packRun d dir v) = (v.setWidth 20).toNat :=
  (frameOperand_split _ _ (by decide)).trans (Nat.mod_eq_of_lt (v.setWidth 20).isLt)

/-- Masking a value to the bits that are kept changes nothing (R123). -/
theorem setWidth_and_mask {n k : Nat} (v m : BitVec n) (h : m.setWidth k = BitVec.allOnes k) :
    (v &&& m).setWidth k = v.setWidth k := by
  rw [BitVec.setWidth_and, h, BitVec.and_allOnes]

theorem packRun_mask (d : Dev) (dir : U8) (v : U32) : packRun d dir (v &&& 0xFFFFF#32) = packRun d dir v := by
  rw [packRun, setWidth_and_mask v _ rfl, packRun]

theorem packMove_mask (d : Dev) (dir : U8) (v : U32) : packMove d dir (v &&& 0x3FFFFF#32) = packMove d dir v := by
  rw [packMove, setWidth_and_mask v _ rfl, packMove]

/-- The position modulo 2^22, a negative one in two's complement (R102). -/
theorem toNat_setWidth_position (p : I32) : ((p.setWidth 22).toNat : Int) = p.toInt % 2 ^ 22 := by
  rw [BitVec.toNat_setWidth, BitVec.toInt_eq_toNat_cond]
  split <;> omega

/-- Settles O12: the packer splits the 20 bits it keeps into bytes. -/
theorem packRunFrame : Obligations.PackRunFrame := fun _ dev dir speed =>
  ⟨packRun dev dir speed, exec_of_pureValue rfl, rfl,
    (frameOperand_packRun ..).trans (BitVec.toNat_setWidth ..),
    by rw [exec_of_pureValue rfl, exec_of_pureValue rfl, packRun_mask]⟩

/-- Settles O13: the packer splits the 22 bits it keeps into bytes. -/
theorem packMoveFrame : Obligations.PackMoveFrame := fun _ dev dir steps =>
  ⟨packMove dev dir steps, exec_of_pureValue rfl, rfl,
    (frameOperand_frame22 ..).trans (BitVec.toNat_setWidth ..),
    by rw [exec_of_pureValue rfl, exec_of_pureValue rfl, packMove_mask]⟩

/-- Settles O14: both packers lay out the same 22 bits of the position. -/
theorem packGotoFrames : Obligations.PackGotoFrames := by
  intro s dev dir pos
  refine ⟨packGoto s.params.codes dev pos, packGotoDir s.params.codes dev dir pos, exec_of_pureValue rfl,
    exec_of_pureValue rfl, rfl, rfl, ?_, rfl, rfl, rfl⟩
  rw [← toNat_setWidth_position, ← frameOperand_frame22 s.params.codes.opcGoto]
  rfl

/-- Settles O15: by the packers' values. -/
theorem packArgumentFree : Obligations.PackArgumentFree := fun _ _ _ => ⟨exec_of_pureValue rfl, exec_of_pureValue rfl⟩

/-- Settles O16: one, two or three bytes of the value, most significant first. -/
theorem packRegisterWrites : Obligations.PackRegisterWrites := by
  intro s dev opcode value
  refine ⟨packRegisterWrite1 dev opcode value, packRegisterWrite2 dev opcode value, packRegisterWrite3 dev opcode value,
    exec_of_pureValue rfl, exec_of_pureValue rfl, exec_of_pureValue rfl, ⟨rfl, BitVec.toNat_setWidth .., rfl, rfl⟩,
    ⟨rfl, ?_, rfl⟩, rfl, frameOperand_split (q := 8) opcode value (by decide)⟩
  simp only [packRegisterWrite2, BitVec.extractLsb'_toNat, Nat.shiftRight_eq_div_pow]
  omega

/-! ### Chain buffers (R109, R110) -/

/-- Slot `d` is the four bytes from `4 d` on. -/
theorem toBytes_slot (cb : ChainBuf) (d : Dev) : (cb.toBytes.drop (4 * d.val)).take 4 = (cb.slot d).toBytes := by
  match d with
  | 0 => rfl
  | 1 => rfl

theorem slot_chainSingle (c : Codes) (dev d : Dev) (f : Frame) :
    (chainSingle c dev f).slot d = if d = dev then f else nopFrame c := by
  match d, dev with
  | 0, 0 | 0, 1 | 1, 0 | 1, 1 => rfl

/-- Settles O17: slot by slot, and the clock-out phase is eight NOP bytes. -/
theorem chainBuffers : Obligations.ChainBuffers := fun s dev f cb =>
  ⟨chainSingle s.params.codes dev f, withClockout s.params.codes cb, exec_of_pureValue rfl, exec_of_pureValue rfl,
    fun d => by rw [toBytes_slot, slot_chainSingle, apply_ite Frame.toBytes]; rfl, rfl, rfl⟩

/-! ### Replies (R120 to R122) -/

theorem byteAt_eq {reply : ReadBuf} {i : Nat} {b : Byte} (h : reply.toBytes[i]? = some b) : byteAt reply i = b := by
  rw [byteAt, List.getD_eq_getElem?_getD, h, Option.getD_some]

theorem toNat_append_byte {n : Nat} (v : BitVec n) (b : Byte) : (v ++ b).toNat = v.toNat * 256 + b.toNat := by
  rw [BitVec.toNat_append, ← Nat.shiftLeft_add_eq_or_of_lt b.isLt, Nat.shiftLeft_eq]

theorem toNat_append_bytes (b0 b1 b2 : Byte) :
    (b0 ++ b1 ++ b2).toNat = b0.toNat * 65536 + b1.toNat * 256 + b2.toNat := by
  rw [toNat_append_byte, toNat_append_byte]
  omega

/-- A value cut to its low `k + 1` bits and sign-extended from bit `k`. -/
theorem toInt_signExtend_setWidth {n k m : Nat} (v : BitVec n) (hk : k + 1 ≤ m) :
    ((v.setWidth (k + 1)).signExtend m).toInt =
      if v.toNat % 2 ^ (k + 1) < 2 ^ k then ((v.toNat % 2 ^ (k + 1) : Nat) : Int)
      else ((v.toNat % 2 ^ (k + 1) : Nat) : Int) - 2 ^ (k + 1) := by
  have htop (x : Nat) : 2 * x < 2 ^ (k + 1) ↔ x < 2 ^ k := by rw [Nat.pow_succ]; omega
  simp only [BitVec.toInt_signExtend_of_le hk, BitVec.toInt_eq_toNat_cond, BitVec.toNat_setWidth, htop, Nat.cast_pow,
    Nat.cast_ofNat]

/-- Settles O18: the two bytes put together again are the word. -/
theorem parseStatusRoundTrip : Obligations.ParseStatusRoundTrip := by
  intro s reply dev w hhigh hlow
  have hw : parseStatus reply dev = w := by
    rw [parseStatus, replyOffset, Config.frameSize, byteAt_eq hhigh, byteAt_eq hlow, Laws.RoundTrip.reg16_join]
  exact exec_of_pureValue (congrArg (some ∘ Value.u16) hw)

/-- Settles O19: the three bytes are a 24-bit number, whose low 22 bits are sign-extended. -/
theorem parsePosition : Obligations.ParsePosition := by
  intro s reply dev b0 b1 b2 h0 h1 h2
  refine ⟨parseParam22 reply dev, exec_of_pureValue rfl, ?_⟩
  rw [parseParam22, replyOffset, Config.frameSize, byteAt_eq h0, byteAt_eq h1, byteAt_eq h2,
    toInt_signExtend_setWidth (k := 21) _ (by decide), toNat_append_bytes]

end Sys2Proof.Machine

/-! PROOF. The register encoder (O21 to O25). -/

namespace Sys2Proof.Machine

/-! ### Rounding and clamping (R140, R9) -/

section
variable {p p' q n : Nat}

theorem rha_mono (h : p ≤ p') : rha p q ≤ rha p' q :=
  Nat.div_le_div_right (Nat.add_le_add_right (Nat.mul_le_mul_left 2 h) q)

/-- The rounded quotient is at most half off, and less than half below. -/
theorem rha_nearest (p : Nat) (hq : 0 < q) : 2 * p < 2 * q * rha p q + q ∧ 2 * q * rha p q ≤ 2 * p + q := by
  have hle : 2 * q * rha p q ≤ 2 * p + q := Nat.mul_div_le ..
  have hlt : 2 * p + q < 2 * q * rha p q + 2 * q := Nat.lt_mul_div_succ _ (by omega)
  omega

/-- A nearest integer that is not half off is the rounded quotient. -/
theorem rha_eq_of_nearest (hlow : 2 * p ≤ 2 * q * n + q) (hhigh : 2 * q * n ≤ 2 * p + q)
    (htie : 2 * p ≠ q * (2 * n + 1)) : rha p q = n := by
  have hhalf : q * (2 * n + 1) = 2 * q * n + q := by ring
  refine Nat.div_eq_of_lt_le (by linarith) ?_
  have hsucc : (n + 1) * (2 * q) = 2 * q * n + 2 * q := by ring
  omega

/-- An odd divisor leaves no tie: twice a number is even. -/
theorem no_tie_of_odd {q : Nat} (hq : Odd q) (p k : Nat) : 2 * p ≠ q * (2 * k + 1) := fun h =>
  Nat.not_even_iff_odd.mpr (hq.mul (odd_two_mul_add_one k)) (h ▸ even_two_mul p)

theorem clamp_mono {x y : Nat} (lo hi : Nat) (h : x ≤ y) : clamp x lo hi ≤ clamp y lo hi :=
  min_le_min_left hi (max_le_max_left lo h)

theorem le_clamp (x : Nat) {lo hi : Nat} (h : lo ≤ hi) : lo ≤ clamp x lo hi := le_min h (le_max_left lo x)

theorem clamp_le (x lo hi : Nat) : clamp x lo hi ≤ hi := min_le_left hi _

end

/-! ### The codes as naturals (R141 to R145): closed forms, order, ranges -/

theorem maxSpeedCode_eq (v : Nat) : maxSpeedCode v = min 1023 ((1000 * v + 119) / 238) := by
  rw [maxSpeedCode, rha]; omega

theorem accDecCode_eq (v : Nat) : accDecCode v = min 4095 ((200 * v + 1455) / 2910) := by
  rw [accDecCode, rha]; omega

theorem stallCode_eq (v : Nat) : stallCode v = min 127 (max ((2 * v + 61) / 62) 1) := by
  rw [stallCode, clamp, rha]; omega

theorem ocdCode_eq (v : Nat) : ocdCode v = min 15 (max ((2 * max v 375 + 375) / 750) 1) := by
  rw [ocdCode, clamp, rha, max_comm 1]

/-- The speed's quotient leaves no tie: 4 divides `2 * 1000`, but no odd multiple of 238. -/
theorem no_tie_speed (v k : Nat) : 2 * (1000 * v) ≠ 238 * (2 * k + 1) := by omega

theorem maxSpeedCode_mono : Monotone maxSpeedCode := fun _ _ h => min_le_min_left _ (rha_mono (Nat.mul_le_mul_left _ h))

theorem accDecCode_mono : Monotone accDecCode := fun _ _ h => min_le_min_left _ (rha_mono (Nat.mul_le_mul_left _ h))

theorem stallCode_mono : Monotone stallCode := fun _ _ h => clamp_mono _ _ (rha_mono (Nat.add_le_add_right h _))

theorem ocdCode_mono : Monotone ocdCode := fun _ _ h => clamp_mono _ _ (rha_mono (max_le_max_right _ h))

theorem maxSpeedCode_le (v : Nat) : maxSpeedCode v ≤ 1023 := min_le_left ..

theorem accDecCode_le (v : Nat) : accDecCode v ≤ 4095 := min_le_left ..

theorem one_le_stallCode (v : Nat) : 1 ≤ stallCode v := le_clamp _ (by decide)

theorem stallCode_le (v : Nat) : stallCode v ≤ 127 := clamp_le ..

theorem one_le_ocdCode (v : Nat) : 1 ≤ ocdCode v := le_clamp _ (by decide)

theorem ocdCode_le (v : Nat) : ocdCode v ≤ 15 := clamp_le ..

theorem microstepCode_two_pow : ∀ k ≤ 7, microstepCode (2 ^ k) = k := by decide

/-- Each branch before the last answers the exponent of its divisor. -/
theorem microstepCode_eq_four_or (d : Int) : microstepCode d = 4 ∨ microstepCode d ≤ 7 ∧ d = 2 ^ microstepCode d := by
  unfold microstepCode
  split_ifs <;> simp [*]

theorem microstepCode_le (d : Int) : microstepCode d ≤ 7 := by
  obtain h | ⟨h, -⟩ := microstepCode_eq_four_or d <;> omega

theorem microstepCode_of_not_two_pow {d : Int} (h : ∀ k ≤ 7, d ≠ 2 ^ k) : microstepCode d = 4 :=
  (microstepCode_eq_four_or d).resolve_right fun ⟨hle, hd⟩ => h _ hle hd

/-! ### The encoders give their codes: each fits its interface type (R94, R148) -/

theorem toNat_ofNat_of_le {n x b : Nat} (h : x ≤ b) (hb : b < 2 ^ n) : (BitVec.ofNat n x).toNat = x :=
  (BitVec.toNat_ofNat x n).trans (Nat.mod_eq_of_lt (h.trans_lt hb))

@[simp] theorem toNat_encodeMaxSpeed (v : U32) : (encodeMaxSpeed v).toNat = maxSpeedCode v.toNat :=
  toNat_ofNat_of_le (maxSpeedCode_le _) (by decide)

@[simp] theorem toNat_encodeAccDec (v : U32) : (encodeAccDec v).toNat = accDecCode v.toNat :=
  toNat_ofNat_of_le (accDecCode_le _) (by decide)

@[simp] theorem toNat_encodeStallThresholdMa (v : U32) : (encodeStallThresholdMa v).toNat = stallCode v.toNat :=
  toNat_ofNat_of_le (stallCode_le _) (by decide)

@[simp] theorem toNat_encodeOcdThresholdMa (v : U32) : (encodeOcdThresholdMa v).toNat = ocdCode v.toNat :=
  toNat_ofNat_of_le (ocdCode_le _) (by decide)

@[simp] theorem toNat_encodeMicrostepExponent (d : I32) :
    (encodeMicrostepExponent d).toNat = microstepCode d.toInt :=
  toNat_ofNat_of_le (microstepCode_le _) (by decide)

/-! ### Register writes keep every value of their width (R106, R107) -/

theorem packRegisterWrite1_value (d : Dev) (o v : U8) : (packRegisterWrite1 d o (v.setWidth 32)).b1 = v :=
  (BitVec.setWidth_setWidth_of_le v (by decide : 8 ≤ 32)).trans (BitVec.setWidth_eq v)

theorem packRegisterWrite2_value (d : Dev) (o : U8) (v : U16) :
    (packRegisterWrite2 d o (v.setWidth 32)).b1 ++ (packRegisterWrite2 d o (v.setWidth 32)).b2 = v := by
  rw [packRegisterWrite2_eq, BitVec.setWidth_setWidth_of_le v (by decide), BitVec.setWidth_eq]
  exact Laws.RoundTrip.reg16_join v

/-! ### The statements about the encoders -/

/-- Settles O23: the table's powers of two, and its last branch. -/
theorem microstepExponents : Obligations.MicrostepExponents := by
  intro s d
  refine ⟨encodeMicrostepExponent d, exec_of_pureValue rfl, fun k hk hd => ?_, fun h => ?_⟩
  · rw [toNat_encodeMicrostepExponent, hd, microstepCode_two_pow k hk]
  · rw [toNat_encodeMicrostepExponent, microstepCode_of_not_two_pow h]

/-- Settles O25: rounding and clamping are monotone, and the packers keep 8 or 16 bits. -/
theorem encodersMonotoneInRange : Obligations.EncodersMonotoneInRange := by
  intro v w h
  simp only [toNat_encodeMaxSpeed, toNat_encodeAccDec, toNat_encodeStallThresholdMa, toNat_encodeOcdThresholdMa]
  exact ⟨⟨maxSpeedCode_mono h, maxSpeedCode_le _⟩, ⟨accDecCode_mono h, accDecCode_le _⟩,
    ⟨stallCode_mono h, one_le_stallCode _, stallCode_le _⟩, ⟨ocdCode_mono h, one_le_ocdCode _, ocdCode_le _⟩,
    fun _ _ => ⟨packRegisterWrite2_value .., packRegisterWrite2_value .., packRegisterWrite1_value ..,
      packRegisterWrite1_value ..⟩⟩

/-- Settles O21: the codes' closed forms. -/
theorem speedAndAccelerationCodes : Obligations.SpeedAndAccelerationCodes := fun _ v =>
  ⟨encodeMaxSpeed v, encodeAccDec v, exec_of_pureValue rfl, exec_of_pureValue rfl,
    (toNat_encodeMaxSpeed v).trans (maxSpeedCode_eq _), (toNat_encodeAccDec v).trans (accDecCode_eq _)⟩

/-- Settles O22: the codes' closed forms. -/
theorem thresholdCodes : Obligations.ThresholdCodes := fun _ v =>
  ⟨encodeStallThresholdMa v, encodeOcdThresholdMa v, exec_of_pureValue rfl, exec_of_pureValue rfl,
    (toNat_encodeStallThresholdMa v).trans (stallCode_eq _), (toNat_encodeOcdThresholdMa v).trans (ocdCode_eq _)⟩

/-- Settles O24: a nearest integer that is not half off is the rounded quotient, and no quotient is half off. -/
theorem noRoundingTies : Obligations.NoRoundingTies := by
  refine ⟨fun v n => ⟨?_, ?_, ?_, ?_⟩, fun v k => ⟨no_tie_speed v k, ?_, ?_, ?_⟩, fun p q hq => rha_nearest p hq⟩
  · rintro ⟨hlow, hhigh⟩
    rw [maxSpeedCode, rha_eq_of_nearest hlow hhigh (no_tie_speed v n)]
  · rintro ⟨hlow, hhigh⟩
    rw [accDecCode, rha_eq_of_nearest hlow hhigh (no_tie_of_odd (by decide) _ _)]
  · rintro ⟨hlow, hhigh⟩
    rw [stallCode, clamp, rha_eq_of_nearest hlow hhigh (no_tie_of_odd (by decide) _ _), max_comm]
  · rintro ⟨hlow, hhigh⟩
    rw [ocdCode, clamp, rha_eq_of_nearest hlow hhigh (no_tie_of_odd (by decide) _ _), max_comm]
  all_goals exact no_tie_of_odd (by decide) _ _

end Sys2Proof.Machine

/-! PROOF. The chain reads and the wait (O29 to O31). -/

namespace Sys2Proof.Machine

/-! ### The prologue of an operation on a device (R180) -/

section
variable {s : State} {i : Instr} {dev : U32} {ls : List Line}

/-- A device index out of range ends an operation at its first line. -/
theorem call_dev_outside (hs : s.slot s.cur = .idle) (hd : 2 ≤ dev.toNat) :
    call i (.checkDev dev :: ls) s = .next (s.returned i [] (.err .invalidArgument) 0) := by
  rw [call_idle hs, State.callFuel]
  simp only [runLines_running, line_checkDev_outside hd, runLines_returned]

/-- An operation that tests the device and then readiness raises the errors of the prologue. -/
theorem prologueErrors_of_call (hs : s.slot s.cur = .idle) (harmed : s.armedFor i = s)
    (hexec : exec i s = call i (.checkDev dev :: .checkReady :: ls) s) : s.prologueErrors i dev :=
  ⟨fun hd => hexec.trans (call_dev_outside hs hd),
    fun hd hready => by rw [harmed, hexec, call_dev_notReady hs hready hd]⟩

/-- With the index in range and the chain ready, an operation goes on to the lines after its prologue. -/
theorem call_dev_ready (hs : s.slot s.cur = .idle) (hready : s.ready = true) {d : Dev} (hd : dev.toNat = d.val) :
    call i (.checkDev dev :: .checkReady :: ls) s =
      .next ((s.running [] 0 ⟨i, 2, d, none, ls⟩).runLines (8 * s.deadlineCount + 62) s.cur) := by
  rw [call_idle hs, State.callFuel]
  simp only [runLines_running, line_checkDev hd, line_checkReady, hready, if_true]

end

/-! ### Reads of one transceive (R160 to R163) -/

/-- The status of both devices is read in one transceive (R160). -/
theorem exec_getStatusAll {s : State} (h : s.canCall) (hready : s.ready = true) :
    exec .getStatusAll s = .next (s.returned .getStatusAll [exchange (statusBuf s.params.codes) (s.answer 0)]
      (readResult (fun rx => .words (parseStatus rx 0) (parseStatus rx 1)) (s.answer 0)) 1) := by
  obtain ⟨hs, hl, -⟩ := h
  change call .getStatusAll (getStatusAllLines s.params.codes) s = _
  rw [call_idle hs, State.callFuel]
  simp only [getStatusAllLines, runLines_running, line_checkReady, hready, if_true, line_emit hl, txOf_status,
    List.nil_append, line_returnStatus, runLines_returned]

/-- BUSY of one device is read in the same transceive (R162). -/
theorem exec_isBusy {s : State} (h : s.canCall) (hready : s.ready = true) {dev : U32} {d : Dev} (hd : dev.toNat = d.val) :
    exec (.isBusy dev) s = .next (s.returned (.isBusy dev) [exchange (statusBuf s.params.codes) (s.answer 0)]
      (readResult (fun rx => .bool ((parseStatus rx d).getLsbD 1)) (s.answer 0)) 1) := by
  obtain ⟨hs, hl, -⟩ := h
  refine (call_dev_ready hs hready hd).trans ?_
  simp only [runLines_running, line_emit hl, txOf_status, List.nil_append, line_returnBusy, runLines_returned]

/-- The position of one device is read in one transceive of `CB_PARAM` (R163), whose opcode no other read has. -/
theorem exec_getAbsPos {s : State} (h : s.canCall) (hready : s.ready = true) {dev : U32} {d : Dev} (hd : dev.toNat = d.val) :
    exec (.getAbsPos dev) s = .next (s.returned (.getAbsPos dev) [exchange (positionBuf s.params.codes d) (s.answer 0)]
      (readResult (fun rx => .position (parseParam22 rx d)) (s.answer 0)) 1) := by
  obtain ⟨hs, hl, hlegal⟩ := h
  refine (call_dev_ready hs hready hd).trans ?_
  simp only [runLines_running, line_emit hl, txOf_position hlegal, List.nil_append, line_returnPosition, runLines_returned]

/-- Settles O29: the tests before the transmit line, then the run of a read. -/
theorem statusReads : Obligations.StatusReads := fun _ _ hs =>
  ⟨fun hready => call_notReady hs hready _ _, exec_getStatusAll, prologueErrors_of_call hs rfl rfl,
    fun _ h hready hd => exec_isBusy h hready hd⟩

/-- Settles O30: the tests before the transmit line, then the run of a read. -/
theorem positionRead : Obligations.PositionRead := fun _ _ hs =>
  ⟨prologueErrors_of_call hs rfl rfl, fun _ h hready hd => exec_getAbsPos h hready hd⟩

/-! ### The wait (R166, R269) -/

theorem waitEvents_armedFor (s : State) (i : Instr) (ms j : Nat) : (s.armedFor i).waitEvents ms j = s.waitEvents ms j := by
  induction j with
  | zero => simp only [State.waitEvents, armedFor_params, armedFor_answer]
  | succ j ih => simp only [State.waitEvents, armedFor_params, armedFor_answer, ih]

theorem deadlineFor_le (s : State) (timeoutMs : U32) : s.deadlineFor timeoutMs ≤ s.deadlineCount := by
  unfold State.deadlineFor
  split
  · exact Nat.zero_le _
  · exact le_rfl

/-- Only received bytes show a device busy. -/
theorem exists_reply_of_showsBusy {d : Dev} {a : Answer} (h : showsBusy d a = true) : ∃ rx, a = .ok rx := by
  cases a with
  | ok rx => exact ⟨rx, rfl⟩
  | err e => cases h

section
variable {s : State} {dev timeoutMs pollMs : U32} {d : Dev} {j : Nat}

/-- A wait tests its device and arms its deadline, and then polls. -/
theorem exec_waitWhileBusy (hs : s.slot s.cur = .idle) (hd : dev.toNat = d.val) :
    let op := Instr.waitWhileBusy dev timeoutMs pollMs
    exec op s = .next (((s.armedFor op).running [] 0
      ⟨op, 2, d, none, pollLines s.params.codes dev pollMs (s.deadlineFor timeoutMs)⟩).runLines
        (8 * s.deadlineCount + 62) s.cur) := by
  change call _ (waitWhileBusyLines dev timeoutMs pollMs) s = _
  rw [call_idle hs, State.callFuel]
  simp only [waitWhileBusyLines, runLines_running, line_checkDev hd, line_armDeadline, List.append_nil]

/-- A wait whose polls before poll `j` show the device busy, with none of them past the deadline, reaches the test of poll `j`
with lines to spare. -/
theorem exec_wait_reaches_test (h : s.canCall) (hready : s.ready = true) (hd : dev.toNat = d.val)
    (hj : j ≤ s.deadlineFor timeoutMs) (hbusy : ∀ i < j, showsBusy d (s.answer i) = true) :
    let op := Instr.waitWhileBusy dev timeoutMs pollMs
    ∃ k fuel, exec op s = .next (((s.armedFor op).running (s.waitEvents pollMs.toNat j) (j + 1)
      ⟨op, k, d, some (s.answer j), [.testPoll dev pollMs (s.deadlineFor timeoutMs - j)]⟩).runLines (fuel + 2) s.cur) := by
  intro op
  obtain ⟨hs, hl, -⟩ := h
  have hle := deadlineFor_le s timeoutMs
  obtain ⟨fuel, hfuel⟩ : ∃ fuel, 8 * s.deadlineCount + 62 = fuel + 2 + 6 * j + 3 :=
    ⟨8 * s.deadlineCount + 57 - 6 * j, by omega⟩
  have hpolls := wait_reaches_poll (s := s.armedFor op) (pollMs := pollMs) (armedFor_cur s op) (by simpa using hl)
    (by simpa using hready) hd op j (s.deadlineFor timeoutMs) 0 [] d 2 none (fuel + 2) hj (by simpa using hbusy)
  rw [List.nil_append, ← waitEvents_eq, waitEvents_armedFor] at hpolls
  simp only [armedFor_params, armedFor_answer, Nat.zero_add] at hpolls
  exact ⟨_, fuel, by rw [exec_waitWhileBusy hs hd, hfuel, hpolls]⟩

end

/-- Settles O31: the test of the poll reached, and after a busy one the test of the deadline. -/
theorem waitPollsUntilIdleOrDeadline : Obligations.WaitPollsUntilIdleOrDeadline := by
  intro s dev timeoutMs pollMs d j h hready hd hj hbusy
  obtain ⟨k, fuel, hexec⟩ := exec_wait_reaches_test (pollMs := pollMs) h hready hd hj hbusy
  refine ⟨fun e ha => ?_, fun rx ha hidle => ?_, fun hlast hshows => ?_⟩
  · rw [hexec]
    simp only [runLines_running, armedFor_cur, ha, line_testPoll, runLines_returned]
  · rw [hexec]
    simp only [runLines_running, armedFor_cur, ha, line_testPoll, hidle, Bool.false_eq_true, if_false, runLines_returned]
  · obtain ⟨rx, ha⟩ := exists_reply_of_showsBusy hshows
    rw [ha] at hshows
    rw [hexec]
    simp only [runLines_running, armedFor_cur, ha, line_testPoll, hshows, if_true, ← hlast, Nat.sub_self,
      line_testDeadline_passed, runLines_returned]

end Sys2Proof.Machine

/-! PROOF. Motion commands and their admission (O32 to O36). -/

namespace Sys2Proof.Machine

/-! ### The checks of a gated operation (R180, R184, R193) -/

section
variable {s : State} {i : Instr} {dev : U32} {d : Dev} {ls : List Line}

/-- With the index in range and the chain ready, disabled power ends a gated operation. -/
theorem powerError_of_call (hs : s.slot s.cur = .idle)
    (hexec : exec i s = call i (.checkDev dev :: .checkReady :: .checkPower :: ls) s) : s.powerError i dev :=
  fun hd hready hpower => by
    rw [hexec, call_dev_ready hs hready (d := ⟨dev.toNat, hd⟩) rfl]
    simp only [runLines_running, line_checkPower, hpower, Bool.false_eq_true, if_false, runLines_returned]

/-- With power enabled too, a gated operation goes on to the lines after its three checks. -/
theorem call_gated (hs : s.slot s.cur = .idle) (hready : s.ready = true) (hpower : s.powerEnabled = true)
    (hd : dev.toNat = d.val) :
    call i (.checkDev dev :: .checkReady :: .checkPower :: ls) s =
      .next ((s.running [] 0 ⟨i, 3, d, none, ls⟩).runLines (8 * s.deadlineCount + 61) s.cur) := by
  rw [call_dev_ready hs hready hd]
  simp only [runLines_running, line_checkPower, hpower, if_true]

/-- Settles O36: the checks are the first lines of every operation with a device operand, in this order. -/
theorem admissionOrder : Obligations.AdmissionOrder := by
  intro s i dev hs hdev
  cases i with
  | waitWhileBusy dev' timeoutMs pollMs =>
    cases hdev
    exact ⟨⟨fun hd => call_dev_outside hs hd, fun hd hready => wait_notReady hs hready hd timeoutMs pollMs⟩, nofun⟩
  | run | move | goto | gotoDir | goHome =>
    cases hdev; exact ⟨prologueErrors_of_call hs rfl rfl, fun _ => powerError_of_call hs rfl⟩
  | isBusy | getAbsPos | resetPos | softStop | hardStop | disableOutputs | applyModelParams =>
    cases hdev; exact ⟨prologueErrors_of_call hs rfl rfl, nofun⟩
  | _ => cases hdev

end

/-! ### A command's transceive and the fault check before it (R181, R183) -/

section
variable {s : State} {op i : Instr} {dev : U32} {d : Dev} {evs : List Event} {n k : Nat} {r : Option Answer} {ls : List Line}

/-- An operation stays at its transmit line while another caller holds the lock (R71). -/
theorem runLines_waits (hl : s.lockOpen s.cur = false) (f : Frame) : ∀ fuel : Nat,
    (s.running evs n ⟨op, k, d, r, .emit f :: ls⟩).runLines fuel s.cur = s.running evs n ⟨op, k, d, r, .emit f :: ls⟩
  | 0 => rfl
  | fuel + 1 => by
    rw [runLines_running _ _ _ _ rfl, line_emit_waits hl f rfl]
    exact runLines_waits hl f fuel

/-- A single-frame command ends with the outcome of its transceive. -/
theorem runLines_command (hl : s.lockOpen s.cur = true) (f : Frame) (fuel : Nat) :
    (s.running evs n ⟨op, k, d, r, sendLines f ++ [.returnUnit]⟩).runLines (fuel + 3) s.cur =
      s.returned op (evs ++ [exchange (txOf s.params.codes d f) (s.answer n)]) (commandResult (s.answer n)) (n + 1) := by
  cases ha : s.answer n with
  | ok rx =>
    rw [send_ok rfl hl (by rw [ha]; rfl), ha, runLines_running _ _ _ _ rfl, line_returnUnit rfl, runLines_returned _ _ _ rfl]
    rfl
  | err e =>
    rw [send_err rfl hl ha, ha]
    rfl

/-- The fault check reads the status once, and a latched fault of the device ends the operation. -/
theorem runLines_faultCheck (hl : s.lockOpen s.cur = true) (hready : s.ready = true) (fuel : Nat) :
    let evs' := evs ++ [exchange (statusBuf s.params.codes) (s.answer n)]
    (s.running evs n ⟨op, k, d, r, faultCheckLines s.params.codes ++ ls⟩).runLines (fuel + 3) s.cur =
      if showsFault d (s.answer n) then s.returned op evs' (.err .faultLatched) (n + 1)
      else (s.running evs' (n + 1) ⟨op, k + 3, d, some (s.answer n), ls⟩).runLines fuel s.cur := by
  simp only [faultCheckLines, List.cons_append, List.nil_append, runLines_running, line_tryReady hready, line_emit hl, txOf_status,
    line_testFault]
  split
  · exact runLines_returned _ _ _ rfl ..
  · rfl

/-! ### Commands with no limit (R186 to R192) -/

/-- A command with no checks after its prologue makes one transceive, whatever the power state. -/
theorem call_ungated_command (hs : s.slot s.cur = .idle) (hl : s.lockOpen s.cur = true) (hready : s.ready = true)
    (hd : dev.toNat = d.val) (f : Frame) :
    call i (.checkDev dev :: .checkReady :: (sendLines f ++ [.returnUnit])) s =
      .next (s.returned i [exchange (txOf s.params.codes d f) (s.answer 0)] (commandResult (s.answer 0)) 1) := by
  rw [call_dev_ready hs hready hd, runLines_command hl]
  rfl

/-- A gated command with no limit makes one transceive. -/
theorem call_gated_command (hs : s.slot s.cur = .idle) (hl : s.lockOpen s.cur = true) (hready : s.ready = true)
    (hpower : s.powerEnabled = true) (hd : dev.toNat = d.val) (f : Frame) :
    call i (.checkDev dev :: .checkReady :: .checkPower :: (sendLines f ++ [.returnUnit])) s =
      .next (s.returned i [exchange (txOf s.params.codes d f) (s.answer 0)] (commandResult (s.answer 0)) 1) := by
  rw [call_gated hs hready hpower hd, runLines_command hl]
  rfl

/-- Settles O34: the three checks, then the one transceive. -/
theorem gotoCommands : Obligations.GotoCommands := by
  intro s dev dir pos hs c acts
  have acts_of {op : Instr} {f : Frame} (hf : f.b0 ∈ c.singleOpcodes)
      (hexec : exec op s = call op (.checkDev dev :: .checkReady :: .checkPower :: (sendLines f ++ [.returnUnit])) s)
      (harmed : s.armedFor op = s) : acts op f :=
    ⟨prologueErrors_of_call hs harmed hexec, powerError_of_call hs hexec, fun d ⟨_, hl, hlegal⟩ hd hready hpower => by
      rw [hexec, call_gated_command hs hl hready hpower hd, txOf_single hlegal d hf]⟩
  exact ⟨acts_of (packGoto_mem ..) rfl rfl, acts_of (packGotoDir_mem ..) rfl rfl, acts_of (by simp [Codes.singleOpcodes]) rfl rfl⟩

/-- Settles O35: the two checks, then the one transceive. -/
theorem ungatedCommands : Obligations.UngatedCommands := by
  intro s dev hs c acts
  have acts_of {op : Instr} {opcode : Byte} (hf : opcode ∈ c.singleOpcodes)
      (hexec : exec op s = call op (.checkDev dev :: .checkReady :: (sendLines ⟨opcode, 0#8, 0#8, 0#8⟩ ++ [.returnUnit])) s)
      (harmed : s.armedFor op = s) : acts op opcode :=
    ⟨prologueErrors_of_call hs harmed hexec, fun d ⟨_, hl, hlegal⟩ hd hready => by
      rw [hexec, call_ungated_command hs hl hready hd, txOf_single hlegal d hf]⟩
  have opcodes : [c.opcResetPos, c.opcSoftStop, c.opcHardStop, c.opcHardHiz, c.opcSoftHiz] ⊆ c.singleOpcodes := by
    simp [Codes.singleOpcodes]
  simp only [List.cons_subset] at opcodes
  obtain ⟨hreset, hsoft, hhard, hhiz, hsoftHiz, -⟩ := opcodes
  exact ⟨acts_of hreset rfl rfl, acts_of hsoft rfl rfl, acts_of hhard rfl rfl, acts_of hhiz rfl rfl, acts_of hsoftHiz rfl rfl⟩

/-! ### Commands with a limit and a fault check (R182 to R185) -/

/-- The lines of a motion command whose value is tested by `limit` (R184, R185). -/
def limitedLines (c : Codes) (dev : U32) (limit : Line) (f : Frame) : List Line :=
  .checkDev dev :: .checkReady :: .checkPower :: limit :: (faultCheckLines c ++ (sendLines f ++ [.returnUnit]))

/-- The line `limit` ends its operation with `LimitExceeded` exactly when `value` is above `bound`. -/
def LimitsTo (s : State) (d : Dev) (limit : Line) (bound value : Nat) : Prop :=
  ∀ {op k r ls}, (s.running [] 0 ⟨op, k, d, r, limit :: ls⟩).lineStep s.cur =
    if bound < value then s.returned op [] (.err .limitExceeded) 0 else s.running [] 0 ⟨op, k + 1, d, r, ls⟩

theorem checkSpeed_limitsTo (s : State) (d : Dev) (speed : U32) :
    LimitsTo s d (.checkSpeed speed) (s.speedCeiling d) speed.toNat := line_checkSpeed speed rfl

theorem checkSteps_limitsTo (s : State) (d : Dev) (steps : U32) :
    LimitsTo s d (.checkSteps steps) s.params.maxMoveSteps.toNat steps.toNat := line_checkSteps steps rfl

variable {limit : Line} {bound value : Nat} {f : Frame}

/-- With its checks passed, a command is at its limit's test, and then at its fault check. -/
theorem call_limited (hs : s.slot s.cur = .idle) (hready : s.ready = true) (hpower : s.powerEnabled = true)
    (hd : dev.toNat = d.val) (hlimit : LimitsTo s d limit bound value) :
    call i (limitedLines s.params.codes dev limit f) s = .next
      (if bound < value then s.returned i [] (.err .limitExceeded) 0
      else (s.running [] 0 ⟨i, 4, d, none, faultCheckLines s.params.codes ++ (sendLines f ++ [.returnUnit])⟩).runLines
        (8 * s.deadlineCount + 60) s.cur) := by
  rw [limitedLines, call_gated hs hready hpower hd, runLines_running _ _ _ _ rfl, hlimit]
  split
  · rw [runLines_returned _ _ _ rfl]
  · rfl

/-- Within the limit it ends with the fault the status read shows, or with the outcome of its frame. -/
theorem call_within_limit (hs : s.slot s.cur = .idle) (hl : s.lockOpen s.cur = true) (hready : s.ready = true)
    (hpower : s.powerEnabled = true) (hd : dev.toNat = d.val) (hlimit : LimitsTo s d limit bound value)
    (hwithin : value ≤ bound) :
    let status := exchange (statusBuf s.params.codes) (s.answer 0)
    call i (limitedLines s.params.codes dev limit f) s = .next
      (if showsFault d (s.answer 0) then s.returned i [status] (.err .faultLatched) 1
      else s.returned i [status, exchange (txOf s.params.codes d f) (s.answer 1)] (commandResult (s.answer 1)) 2) := by
  rw [call_limited hs hready hpower hd hlimit, if_neg (Nat.not_lt.mpr hwithin), runLines_faultCheck hl hready,
    runLines_command hl]
  rfl

/-- What a command with a limit does once its index, readiness and power are tested. -/
theorem limited_outcomes (hs : s.slot s.cur = .idle) (hready : s.ready = true) (hpower : s.powerEnabled = true)
    (hd : dev.toNat = d.val) (hlimit : LimitsTo s d limit bound value) (hf : f.b0 ∈ s.params.codes.singleOpcodes)
    (hexec : exec i s = call i (limitedLines s.params.codes dev limit f) s) :
    let status := exchange (statusBuf s.params.codes) (s.answer 0)
    (bound < value → exec i s = .next (s.returned i [] (.err .limitExceeded) 0)) ∧
    (s.canCall → value ≤ bound → showsFault d (s.answer 0) = true →
      exec i s = .next (s.returned i [status] (.err .faultLatched) 1)) ∧
    (s.canCall → value ≤ bound → showsFault d (s.answer 0) = false →
      exec i s = .next (s.returned i [status, exchange (singleBuf s.params.codes d f) (s.answer 1)]
        (commandResult (s.answer 1)) 2)) := by
  refine ⟨fun hexceeds => ?_, fun ⟨_, hl, _⟩ hwithin hfault => ?_, fun ⟨_, hl, hlegal⟩ hwithin hfault => ?_⟩
  · rw [hexec, call_limited hs hready hpower hd hlimit, if_pos hexceeds]
  · rw [hexec, call_within_limit hs hl hready hpower hd hlimit hwithin, if_pos hfault]
  · rw [hexec, call_within_limit hs hl hready hpower hd hlimit hwithin, hfault, if_neg Bool.false_ne_true,
      txOf_single hlegal d hf]

end

/-- Settles O32: the checks in order, the ceiling among them, then the fault check and the frame. -/
theorem runAdmission : Obligations.RunAdmission := fun s _ _ speed hs =>
  ⟨prologueErrors_of_call hs rfl rfl, powerError_of_call hs rfl, fun d hd hready hpower =>
    limited_outcomes hs hready hpower hd (checkSpeed_limitsTo s d speed) (packRun_mem ..) rfl⟩

/-- Settles O33: as `run`, with the step limit. -/
theorem moveAdmission : Obligations.MoveAdmission := fun s _ _ steps hs =>
  ⟨prologueErrors_of_call hs rfl rfl, powerError_of_call hs rfl, fun d hd hready hpower =>
    limited_outcomes hs hready hpower hd (checkSteps_limitsTo s d steps) (packMove_mem ..) rfl⟩

end Sys2Proof.Machine

/-! PROOF. The admission policy: whatever instruction is called, motion frames go out only from admitted calls (O38). -/

namespace Sys2Proof.Machine

/-! ### The ends of a motion command (R184 to R188) -/

section
variable {s t : State} {i : Instr} {dev : U32} {d : Dev} {ls : List Line} {f : Frame}

/-- The call of `i` from `s` has made no event: it has failed at a check (the fault check is none of these), or it waits for the
lock at its first transmit line. -/
def Unsent (s : State) (i : Instr) (t : State) : Prop :=
  (∃ e, t = s.returned i [] (.err e) 0 ∧ e ≠ .faultLatched) ∨ ∃ a, t = s.running [] 0 a

/-- A gated operation fails at one of its three checks, or goes on to the lines after them. -/
theorem gated_cases (hs : s.slot s.cur = .idle) (harmed : s.armedFor i = s)
    (hexec : exec i s = call i (.checkDev dev :: .checkReady :: .checkPower :: ls) s) (h : exec i s = .next t) :
    Unsent s i t ∨ ∃ d : Dev, dev.toNat = d.val ∧ s.ready = true ∧ s.powerEnabled = true := by
  have failed {e : ErrorKind} (ht : exec i s = .next (s.returned i [] (.err e) 0)) (he : e ≠ .faultLatched) :
      Unsent s i t := by
    rw [h] at ht; cases ht; exact .inl ⟨e, rfl, he⟩
  obtain ⟨houtside, hunready⟩ := prologueErrors_of_call hs harmed hexec
  by_cases hd : dev.toNat < 2
  · cases hready : s.ready with
    | false => rw [harmed] at hunready; exact .inl (failed (hunready hd hready) nofun)
    | true =>
      cases hpower : s.powerEnabled with
      | false => exact .inl (failed (powerError_of_call hs hexec hd hready hpower) nofun)
      | true => exact .inr ⟨⟨dev.toNat, hd⟩, rfl, rfl, rfl⟩
  · exact .inl (failed (houtside (Nat.not_lt.mp hd)) nofun)

/-- A gated command with no limit fails, waits for the lock, or ends with the outcome of its transceive. -/
theorem command_cases (hs : s.slot s.cur = .idle) (harmed : s.armedFor i = s)
    (hexec : exec i s = call i (.checkDev dev :: .checkReady :: .checkPower :: (sendLines f ++ [.returnUnit])) s)
    (h : exec i s = .next t) :
    Unsent s i t ∨ ∃ d : Dev, dev.toNat = d.val ∧ s.ready = true ∧ s.powerEnabled = true ∧
      t = s.returned i [exchange (txOf s.params.codes d f) (s.answer 0)] (commandResult (s.answer 0)) 1 := by
  rcases gated_cases hs harmed hexec h with hunsent | ⟨d, hd, hready, hpower⟩
  · exact .inl hunsent
  · rw [hexec] at h
    cases hl : s.lockOpen s.cur with
    | true =>
      rw [call_gated_command hs hl hready hpower hd] at h
      cases h
      exact .inr ⟨d, hd, hready, hpower, rfl⟩
    | false =>
      rw [call_gated hs hready hpower hd] at h
      cases h
      exact .inl (.inr ⟨_, runLines_waits hl f _⟩)

/-- A command with a limit fails, waits for the lock, or, within its limit, ends with the fault of its status read or with the
outcome of its frame. -/
theorem limited_cases {limit : Line} {bound : Dev → Nat} {value : Nat} (hs : s.slot s.cur = .idle) (harmed : s.armedFor i = s)
    (hlimit : ∀ d, LimitsTo s d limit (bound d) value)
    (hexec : exec i s = call i (limitedLines s.params.codes dev limit f) s) (h : exec i s = .next t) :
    let status := exchange (statusBuf s.params.codes) (s.answer 0)
    Unsent s i t ∨
      ∃ d : Dev, dev.toNat = d.val ∧ s.ready = true ∧ s.powerEnabled = true ∧ value ≤ bound d ∧
        t = if showsFault d (s.answer 0) then s.returned i [status] (.err .faultLatched) 1
          else s.returned i [status, exchange (txOf s.params.codes d f) (s.answer 1)] (commandResult (s.answer 1)) 2 := by
  rcases gated_cases hs harmed hexec h with hunsent | ⟨d, hd, hready, hpower⟩
  · exact .inl hunsent
  · rw [hexec] at h
    by_cases hwithin : value ≤ bound d
    · cases hl : s.lockOpen s.cur with
      | true =>
        rw [call_within_limit hs hl hready hpower hd (hlimit d) hwithin] at h
        cases h
        exact .inr ⟨d, hd, hready, hpower, hwithin, rfl⟩
      | false =>
        rw [call_limited hs hready hpower hd (hlimit d), if_neg (Nat.not_lt.mpr hwithin), faultCheckLines, List.cons_append,
          runLines_running _ _ _ _ rfl, line_tryReady hready _ rfl] at h
        cases h
        exact .inl (.inr ⟨_, runLines_waits hl _ _⟩)
    · rw [call_limited hs hready hpower hd (hlimit d), if_pos (Nat.not_le.mp hwithin)] at h
      cases h
      exact .inl (.inl ⟨_, rfl, nofun⟩)

end

/-! ### The opcode bytes on the wire -/

/-- The opcodes of RUN. -/
def turningOpcodes : List Byte := [Config.opcRun, Config.opcRun ||| 1#8]

/-- The opcodes of MOVE. -/
def movingOpcodes : List Byte := [Config.opcMove, Config.opcMove ||| 1#8]

/-- The opcodes of GOTO, GOTO_DIR and GO_HOME. -/
def goingOpcodes (c : Codes) : List Byte := [c.opcGoto, c.opcGotoDir, c.opcGotoDir ||| 1#8, c.opcGoHome]

theorem motionOpcodes_eq (c : Codes) : motionOpcodes c = turningOpcodes ++ (movingOpcodes ++ goingOpcodes c) := rfl

/-- RUN and MOVE have opcodes of their own. -/
theorem turning_not_moving : ∀ b ∈ turningOpcodes, b ∉ movingOpcodes := by decide

/-- In a legal configuration GOTO, GOTO_DIR and GO_HOME have opcodes of their own. -/
theorem going_not_turning_or_moving {c : Codes} (hl : c.legal = true) {b : Byte} (hb : b ∈ goingOpcodes c) :
    b ∉ turningOpcodes ∧ b ∉ movingOpcodes := by
  have hmotion : ((c.emittedOpcodes.drop 13).take 8).Nodup :=
    (Laws.RoundTrip.legal_nodup hl).sublist ((List.take_sublist ..).trans (List.drop_sublist ..))
  have hn : ((movingOpcodes ++ turningOpcodes) ++ goingOpcodes c).Nodup := hmotion
  have hdisjoint := List.disjoint_of_nodup_append hn
  exact ⟨fun h => hdisjoint (List.mem_append_right _ h) hb, fun h => hdisjoint (List.mem_append_left _ h) hb⟩

/-- The buffer of a frame holds the frame in its device's slot, and every other frame in it moves no motor. -/
theorem frameFor_txOf (c : Codes) (d e : Dev) (f : Frame) :
    (e = d ∧ frameFor e (txOf c d f) = f) ∨ (frameFor e (txOf c d f)).b0 ∈ quietOpcodes c := by
  have single : (e = d ∧ (chainSingle c d f).slot e = f) ∨ ((chainSingle c d f).slot e).b0 ∈ quietOpcodes c := by
    rw [slot_chainSingle]
    split
    next he => exact .inl ⟨he, rfl⟩
    next => exact .inr (by simp [nopFrame, packNoarg, quietOpcodes])
  unfold txOf
  split
  · have hslot : ∀ e : Dev, ((packGetStatusOpcodes c).slot e).b0 = c.opcGetStatus := fun | 0 | 1 => rfl
    exact .inr (by simp [frameFor, withClockout, hslot, quietOpcodes])
  · split
    · exact single
    · exact single

/-! ### The policy (R195) -/

/-- The policy for a frame of opcode `b` that the call of `i` from `s` sends to device `d`. -/
def Policy (s : State) (i : Instr) (d : Dev) (b : Byte) : Prop :=
  let c := s.params.codes
  (b ∈ turningOpcodes →
    ∃ dev dir speed, i = .run dev dir speed ∧ dev.toNat = d.val ∧ s.ready = true ∧ s.powerEnabled = true ∧
      speed.toNat ≤ s.speedCeiling d ∧ showsFault d (s.answer 0) = false) ∧
  (b ∈ movingOpcodes →
    ∃ dev dir steps, i = .move dev dir steps ∧ dev.toNat = d.val ∧ s.ready = true ∧ s.powerEnabled = true ∧
      steps.toNat ≤ s.params.maxMoveSteps.toNat ∧ showsFault d (s.answer 0) = false) ∧
  (b ∈ goingOpcodes c → s.ready = true ∧ s.powerEnabled = true)

/-- Every frame in these events keeps the policy. -/
def Keeps (s : State) (i : Instr) (evs : List Event) : Prop :=
  ∀ e ∈ evs, ∀ tx reply, e = .transceive tx reply → ∀ d, Policy s i d (frameFor d tx).b0

section
variable {s t : State} {i : Instr} {d : Dev} {evs : List Event} {r : Result} {f : Frame}

theorem policy_of_not_motion {b : Byte} (hb : b ∉ motionOpcodes s.params.codes) : Policy s i d b := by
  rw [motionOpcodes_eq, List.mem_append, List.mem_append, not_or, not_or] at hb
  obtain ⟨hturning, hmoving, hgoing⟩ := hb
  exact ⟨fun h => absurd h hturning, fun h => absurd h hmoving, fun h => absurd h hgoing⟩

theorem keeps_append {evs evs' : List Event} : Keeps s i (evs ++ evs') ↔ Keeps s i evs ∧ Keeps s i evs' := List.forall_mem_append

theorem keeps_nil : Keeps s i [] := List.forall_mem_nil _

theorem keeps_ret : Keeps s i [.ret i r] := List.forall_mem_singleton.mpr nofun

/-- A transceive keeps the policy if its frame does. -/
theorem keeps_exchange (hl : s.params.codes.legal = true) (hf : Policy s i d f.b0) (a : Answer) :
    Keeps s i [exchange (txOf s.params.codes d f) a] := by
  refine List.forall_mem_singleton.mpr fun tx reply he e => ?_
  cases he
  rcases frameFor_txOf s.params.codes d e f with ⟨rfl, h⟩ | h
  · rwa [h]
  · exact policy_of_not_motion (quiet_not_motion hl h)

theorem keeps_status (hl : s.params.codes.legal = true) (a : Answer) : Keeps s i [exchange (statusBuf s.params.codes) a] := by
  rw [← txOf_status s.params.codes 0]
  exact keeps_exchange hl (policy_of_not_motion ((getStatus_sendable s.params.codes false).not_motion hl)) a

/-- The policy of a RUN frame: the checks of `run` (R184). -/
theorem policy_run {dev : U32} (dir : U8) {speed : U32} (hd : dev.toNat = d.val) (hready : s.ready = true)
    (hpower : s.powerEnabled = true) (hwithin : speed.toNat ≤ s.speedCeiling d) (hfault : showsFault d (s.answer 0) = false) :
    Policy s (.run dev dir speed) d (packRun d dir speed).b0 := by
  have hb : (packRun d dir speed).b0 ∈ turningOpcodes := by
    rcases dirBit_cases dir with h | h <;> simp [packRun, turningOpcodes, h]
  exact ⟨fun _ => ⟨dev, dir, speed, rfl, hd, hready, hpower, hwithin, hfault⟩, fun h => absurd h (turning_not_moving _ hb),
    fun _ => ⟨hready, hpower⟩⟩

/-- The policy of a MOVE frame: the checks of `move` (R185). -/
theorem policy_move {dev : U32} (dir : U8) {steps : U32} (hd : dev.toNat = d.val) (hready : s.ready = true)
    (hpower : s.powerEnabled = true) (hwithin : steps.toNat ≤ s.params.maxMoveSteps.toNat)
    (hfault : showsFault d (s.answer 0) = false) : Policy s (.move dev dir steps) d (packMove d dir steps).b0 := by
  have hb : (packMove d dir steps).b0 ∈ movingOpcodes := by
    rcases dirBit_cases dir with h | h <;> simp [packMove, frame22, movingOpcodes, h]
  exact ⟨fun h => absurd hb (turning_not_moving _ h), fun _ => ⟨dev, dir, steps, rfl, hd, hready, hpower, hwithin, hfault⟩,
    fun _ => ⟨hready, hpower⟩⟩

/-- The policy of a GOTO, GOTO_DIR or GO_HOME frame: power enabled (R186 to R188). -/
theorem policy_going (hl : s.params.codes.legal = true) (hready : s.ready = true) (hpower : s.powerEnabled = true) {b : Byte}
    (hb : b ∈ goingOpcodes s.params.codes) : Policy s i d b := by
  obtain ⟨hturning, hmoving⟩ := going_not_turning_or_moving hl hb
  exact ⟨fun h => absurd h hturning, fun h => absurd h hmoving, fun _ => ⟨hready, hpower⟩⟩

/-- The log has grown by events that keep the policy. -/
def KeptBy (s : State) (i : Instr) (t : State) : Prop := ∃ evs, t.log = s.logAfter s.cur evs ∧ Keeps s i evs

theorem keptBy_returned {n : Nat} (h : Keeps s i evs) : KeptBy s i (s.returned i evs r n) :=
  ⟨evs ++ [.ret i r], rfl, keeps_append.mpr ⟨h, keeps_ret⟩⟩

theorem keptBy_unsent (h : Unsent s i t) : KeptBy s i t := by
  rcases h with ⟨e, rfl, -⟩ | ⟨a, rfl⟩
  · exact keptBy_returned keeps_nil
  · exact ⟨[], rfl, keeps_nil⟩

end

/-! ### Operations that are no motion command -/

section
variable {s t : State} {i : Instr}

/-- In a run of `i` from `s`: the frames sent keep the policy, and those to come move no motor. -/
structure UnmovingRun (s : State) (i : Instr) (t : State) : Prop where
  kept : KeptBy s i t
  params : t.params = s.params
  frames : ∀ a, t.slot s.cur = .active a → ∀ f, .emit f ∈ a.rest → f.b0 ∉ motionOpcodes s.params.codes

/-- A line's transceive is that of its frame. -/
theorem keeps_events (hl : s.params.codes.legal = true) (hp : t.params = s.params) {a : Activation} {l : Line}
    (hf : ∀ f, l = .emit f → f.b0 ∉ motionOpcodes s.params.codes) : Keeps s i (l.events a t) := by
  cases l with
  | emit f =>
    simp only [Line.events, hp]
    exact keeps_exchange hl (policy_of_not_motion (hf f rfl)) _
  | _ => simp [Line.events, Keeps]

theorem lineStep_unmovingRun (hl : s.params.codes.legal = true) (h : UnmovingRun s i t) : UnmovingRun s i (t.lineStep s.cur) := by
  obtain ⟨⟨evs, hlog, hkeeps⟩, hparams, hframes⟩ := h
  have hres := lineStep_result s.cur t
  generalize t.lineStep s.cur = u at hres ⊢
  cases hres with
  | stays => exact ⟨⟨evs, hlog, hkeeps⟩, hparams, hframes⟩
  | drained a hs hr => exact ⟨⟨evs, hlog, hkeeps⟩, hparams, by simp⟩
  | ends a l ls r env hs hr hend =>
    refine ⟨⟨evs ++ [.ret a.op r], by simp [hlog, State.logAfter], keeps_append.mpr ⟨hkeeps, ?_⟩⟩, hparams, by simp⟩
    exact List.forall_mem_singleton.mpr nofun
  | moves a l ls env hs hr hpass =>
    have hrest := hframes a hs
    rw [hr] at hrest
    have hline : Keeps s i (l.events a t) := keeps_events hl hparams fun f hf => hrest f (hf ▸ List.mem_cons_self)
    refine ⟨⟨evs ++ l.events a t, by simp [State.logAfter, hlog], keeps_append.mpr ⟨hkeeps, hline⟩⟩, by simp [hparams],
      fun b hb f hf => ?_⟩
    rw [slot_setSlot, if_pos rfl] at hb
    cases hb
    rcases mem_following hf with hf | hf
    · exact hrest f (List.mem_cons_of_mem _ hf)
    · have hsend := inlined_emit hf
      rw [hparams] at hsend
      exact hsend.not_motion hl

/-- An operation that is no motion command keeps the policy. -/
theorem keptBy_ungated (hl : s.params.codes.legal = true) {ls : List Line} (hp : program s.params i = some ls)
    (hg : powerGated i = false) (fuel : Nat) : KeptBy s i ((s.beginCall s.cur i ls).runLines fuel s.cur) := by
  have hbegin : UnmovingRun s i (s.beginCall s.cur i ls) := by
    refine ⟨⟨[], by simp [State.beginCall, State.logAfter], keeps_nil⟩, rfl, fun a ha f hf => ?_⟩
    rw [slot_beginCall, if_pos rfl] at ha
    cases ha
    have hsend := program_frames hp f (mem_frames hf)
    rw [hg] at hsend
    exact hsend.not_motion hl
  exact (runLines_keeps (P := UnmovingRun s i) (fun _ => lineStep_unmovingRun hl) fuel _ hbegin).kept

end

/-! ### The motion commands -/

section
variable {s t : State} {i : Instr} {dev : U32} {f : Frame}

/-- A command of R186 to R188 sends its frame with power enabled. -/
theorem keptBy_going (hs : s.slot s.cur = .idle) (hl : s.params.codes.legal = true) (harmed : s.armedFor i = s)
    (hexec : exec i s = call i (.checkDev dev :: .checkReady :: .checkPower :: (sendLines f ++ [.returnUnit])) s)
    (hf : f.b0 ∈ goingOpcodes s.params.codes) (h : exec i s = .next t) : KeptBy s i t := by
  rcases command_cases hs harmed hexec h with hunsent | ⟨d, -, hready, hpower, rfl⟩
  · exact keptBy_unsent hunsent
  · exact keptBy_returned (keeps_exchange hl (policy_going hl hready hpower hf) _)

/-- A command with a limit sends its frame within the limit and with no fault shown. -/
theorem keptBy_limited {limit : Line} {bound : Dev → Nat} {value : Nat} (hs : s.slot s.cur = .idle)
    (hl : s.params.codes.legal = true) (harmed : s.armedFor i = s) (hlimit : ∀ d, LimitsTo s d limit (bound d) value)
    (hexec : exec i s = call i (limitedLines s.params.codes dev limit f) s)
    (hf : ∀ d : Dev, dev.toNat = d.val → s.ready = true → s.powerEnabled = true → value ≤ bound d →
      showsFault d (s.answer 0) = false → Policy s i d f.b0)
    (h : exec i s = .next t) : KeptBy s i t := by
  rcases limited_cases hs harmed hlimit hexec h with hunsent | ⟨d, hd, hready, hpower, hwithin, rfl⟩
  · exact keptBy_unsent hunsent
  · split
    next => exact keptBy_returned (keeps_status hl _)
    next hfault =>
      have hframe := hf d hd hready hpower hwithin (Bool.eq_false_iff.mpr hfault)
      exact keptBy_returned (keeps_append (evs := [_]).mpr ⟨keeps_status hl _, keeps_exchange hl hframe _⟩)

/-- Every instruction keeps the policy. -/
theorem exec_keptBy (hl : s.params.codes.legal = true) (hs : s.slot s.cur = .idle) (h : exec i s = .next t) : KeptBy s i t := by
  rcases exec_idle hs h with ⟨-, v, rfl⟩ | ⟨ls, hp, -, rfl⟩
  · exact ⟨[], by simp [State.deliver, State.logAfter], keeps_nil⟩
  · cases hg : powerGated i with
    | false => exact keptBy_ungated hl hp hg _
    | true =>
      cases i with
      | run dev dir speed =>
        exact keptBy_limited hs hl rfl (fun d => checkSpeed_limitsTo s d speed) rfl (fun _ => policy_run dir) h
      | move dev dir steps =>
        exact keptBy_limited hs hl rfl (fun d => checkSteps_limitsTo s d steps) rfl (fun _ => policy_move dir) h
      | goto dev pos =>
        exact keptBy_going hs hl rfl rfl (f := packGoto s.params.codes 0 pos) (by simp [packGoto, frame22, goingOpcodes]) h
      | gotoDir dev dir pos =>
        refine keptBy_going hs hl rfl rfl (f := packGotoDir s.params.codes 0 dir pos) ?_ h
        rcases dirBit_cases dir with hb | hb <;> simp [packGotoDir, frame22, goingOpcodes, hb]
      | goHome dev =>
        exact keptBy_going hs hl rfl rfl (f := packNoarg 0 s.params.codes.opcGoHome) (by simp [packNoarg, goingOpcodes]) h
      | _ => cases hg

end

theorem tx_eq_some {e : Entry} {tx : Buf} (h : e.tx = some tx) : ∃ reply, e.event = .transceive tx reply := by
  obtain ⟨g, ev⟩ := e
  cases ev with
  | transceive tx' reply => cases h; exact ⟨reply, rfl⟩
  | _ => cases h

/-- Settles O38: motion commands by their ends, every other operation by its frames, line by line. -/
theorem onlyAdmittedMotionReachesTheWire : Obligations.OnlyAdmittedMotionReachesTheWire := by
  intro s t i hl hs h c e he tx htx d
  obtain ⟨evs, hlog, hkeeps⟩ := exec_keptBy hl hs h
  rw [hlog, State.logAfter, List.drop_left] at he
  obtain ⟨ev, hev, rfl⟩ := List.mem_map.mp he
  obtain ⟨reply, hreply⟩ := tx_eq_some htx
  exact hkeeps ev hev tx reply hreply d

end Sys2Proof.Machine

/-! PROOF. An admission failure makes no transceive but the status read, and changes no block state (O37). -/

namespace Sys2Proof.Machine

/-! ### Lines that raise no admission error (R194, R263) -/

/-- The errors an operation can end with after its admission. -/
def ErrorKind.pastAdmission : ErrorKind → Bool
  | .transportError _ | .timeout => true
  | _ => false

/-- The line raises no admission error; `ready` says whether the chain is ready. -/
def Line.pastAdmission (ready : Bool) : Line → Prop
  | .checkDev i | .armDeadline i .. | .testPoll i .. | .testDeadline i .. => ready = true ∧ i.toNat < 2
  | .checkReady | .rearm _ => ready = true
  | .checkPower | .checkSpeed _ | .checkSteps _ | .checkAxis _ | .checkTransport | .checkPowerPin | .checkResetPin | .tryReady _
  | .testFault | .findIndex _ | .findName _ => False
  | _ => True

/-- A line that returns, or goes on to lines one of which does. -/
def Line.returns : Line → Bool
  | .returnStatus | .returnBusy | .returnPosition | .returnModel | .returnUnit | .armDeadline .. | .testPoll .. | .testDeadline .. =>
    true
  | _ => false

/-- Up to a line that returns, none raises an admission error. -/
def Settled (ready : Bool) : List Line → Prop
  | [] => False
  | l :: ls => l.pastAdmission ready ∧ (l.returns = true ∨ Settled ready ls)

section
variable {ready : Bool} {g : Nat} {s t : State} {a : Activation} {l : Line} {ls : List Line}

theorem settled_append {xs : List Line} (hx : ∀ x ∈ xs, x.pastAdmission ready) (h : Settled ready ls) : Settled ready (xs ++ ls) := by
  induction xs with
  | nil => exact h
  | cons x xs ih =>
    obtain ⟨hx, hxs⟩ := List.forall_mem_cons.mp hx
    exact ⟨hx, .inr (ih hxs)⟩

theorem pastAdmission_mono (h : l.pastAdmission false) : l.pastAdmission true := by
  cases l with
  | checkDev i | armDeadline i | testPoll i | testDeadline i => cases h.1
  | checkReady | rearm _ => cases h
  | _ => exact h

theorem settled_mono : ∀ {ls : List Line}, Settled false ls → Settled true ls
  | _ :: _, ⟨hl, hls⟩ => ⟨pastAdmission_mono hl, hls.imp_right settled_mono⟩

theorem applyLines_pastAdmission {c : Codes} {dev : U32} {m : MotorModel} (hready : ready = true) (hd : dev.toNat < 2) :
    ∀ x ∈ applyLines c dev m, x.pastAdmission ready := by
  intro x hx
  rcases mem_applyLines hx with rfl | rfl | rfl | ⟨w, -, rfl⟩
  · exact ⟨hready, hd⟩
  · exact hready
  · trivial
  · trivial

theorem settled_poll {c : Codes} {dev pollMs : U32} {left : Nat} (h : ready = true ∧ dev.toNat < 2) :
    Settled ready (pollLines c dev pollMs left ++ ls) :=
  ⟨h, .inr ⟨h.1, .inr ⟨trivial, .inr ⟨h, .inl rfl⟩⟩⟩⟩

/-- The lines after a line that goes on are settled too. -/
theorem settled_following (hl : l.passes g s) (h : Settled s.ready (l :: ls)) : Settled s.ready (l.following s ls) := by
  obtain ⟨hpast, hrest⟩ := h
  cases l with
  | armDeadline dev timeoutMs pollMs => exact settled_poll hpast
  | testPoll dev pollMs left => exact ⟨hpast, .inl rfl⟩
  | testDeadline dev pollMs left => exact ⟨trivial, .inr (settled_poll hpast)⟩
  | rearm axis =>
    have hls := hrest.resolve_left nofun
    simp only [Line.following]
    split
    · refine settled_append (applyLines_pastAdmission hpast ?_) hls
      match axis with
      | 0 | 1 => decide
    · exact hls
  | tryReady skip => cases hpast
  | findIndex index => cases hpast
  | findName name => cases hpast
  | returnStatus | returnBusy | returnPosition | returnModel | returnUnit => cases hl
  | _ => exact hrest.resolve_left nofun

theorem settled_write (h : Settled s.ready ls) : Settled (l.write g a s).ready ls := by
  cases hready : s.ready with
  | true => rw [write_ready g a s l hready]; rwa [hready] at h
  | false =>
    rw [hready] at h
    cases (l.write g a s).ready with
    | true => exact settled_mono h
    | false => exact h

/-- Caller `g` has been given a result, and no admission error. -/
def ReturnedPast (g : Nat) (t : State) : Prop :=
  ∃ r, (t.caller g).result = some r ∧ ∀ e, r = .err e → e.pastAdmission = true

theorem returnedPast_finish {op : Instr} {r : Result} (h : ∀ e, r = .err e → e.pastAdmission = true) :
    ReturnedPast g (s.finish g op r) := ⟨r, by simp, h⟩

theorem returnedPast_giveBack {v : Value} : ReturnedPast g (s.giveBack g a v) := returnedPast_finish nofun

/-- A line that reads an answer ends with the transport's error, or does what it does with the received bytes. -/
theorem returnedPast_onReply {k : ReadBuf → State} (hs : s.slot g = .active a)
    (hk : ∀ rx, (k rx).slot g = .idle → ReturnedPast g (k rx)) (hidle : (s.onReply g a k).slot g = .idle) :
    ReturnedPast g (s.onReply g a k) := by
  unfold State.onReply at hidle ⊢
  split at hidle
  next => cases hidle.symm.trans hs
  next e _ => exact returnedPast_finish fun _ he => by cases he; rfl
  next rx _ => exact hk rx hidle

/-- A line that cannot end its operation leaves it in progress. -/
theorem slot_lineStep_of_not_ends (hs : s.slot g = .active a) (hr : a.rest = l :: ls) (hl : ∀ r, ¬ l.endsWith r) :
    (s.lineStep g).slot g ≠ .idle := by
  intro hidle
  have hres := lineStep_result g s
  generalize s.lineStep g = t at hres hidle
  cases hres with
  | stays => cases hidle.symm.trans hs
  | drained b hb hnil =>
    cases hs.symm.trans hb
    cases hr.symm.trans hnil
  | ends b x xs r env hb hrest hend =>
    cases hs.symm.trans hb
    cases hr.symm.trans hrest
    exact hl r hend
  | moves b x xs env hb hrest =>
    rw [slot_setSlot, if_pos rfl] at hidle
    cases hidle

theorem slot_advance_ne_idle (hs : s.slot g = .active a) : (s.advance g).slot g ≠ .idle := by
  rw [advance_of_active hs, slot_setSlot, if_pos rfl]
  nofun

/-- A line past admission that ends its operation raises no admission error. -/
theorem lineStep_returnedPast (hs : s.slot g = .active a) (hr : a.rest = l :: ls) (hl : l.pastAdmission s.ready)
    (hidle : (s.lineStep g).slot g = .idle) : ReturnedPast g (s.lineStep g) := by
  have goes_on (hno : ∀ r, ¬ l.endsWith r) : ReturnedPast g (s.lineStep g) :=
    absurd hidle (slot_lineStep_of_not_ends hs hr hno)
  cases l with
  | checkPower | checkSpeed | checkSteps | checkAxis | checkTransport | checkPowerPin | checkResetPin | tryReady | testFault | findIndex
  | findName => cases hl
  | acquireLock | releaseLock | emit | armDeadline | sleep | driveReset | setReady | switchPower | rearm | setAxis | persist =>
    exact goes_on fun _ => id
  | checkDev i =>
    rw [lineStep_cons hs hr, runLine, dif_pos (show i.toNat < Config.chainSize from hl.2)] at hidle
    simp at hidle
  | checkReady =>
    rw [lineStep_cons hs hr, runLine, if_pos (show s.ready = true from hl)] at hidle
    exact absurd hidle (slot_advance_ne_idle hs)
  | needOk =>
    rw [lineStep_cons hs hr] at hidle ⊢
    exact returnedPast_onReply hs (fun _ h => absurd h (slot_advance_ne_idle hs)) hidle
  | returnStatus | returnBusy | returnPosition =>
    rw [lineStep_cons hs hr] at hidle ⊢
    exact returnedPast_onReply hs (fun _ _ => returnedPast_giveBack) hidle
  | testPoll dev pollMs left =>
    rw [lineStep_cons hs hr] at hidle ⊢
    refine returnedPast_onReply hs (fun rx h => ?_) hidle
    split at h
    next => simp at h
    next hbusy => rw [if_neg hbusy]; exact returnedPast_giveBack
  | testDeadline dev pollMs left =>
    rw [lineStep_cons hs hr] at hidle ⊢
    cases left with
    | zero => exact returnedPast_finish fun _ he => by cases he; rfl
    | succ left => simp [runLine] at hidle
  | returnModel =>
    rw [lineStep_cons hs hr, runLine] at hidle ⊢
    split at hidle
    next => exact returnedPast_giveBack
    next => cases hidle.symm.trans hs
  | returnUnit =>
    rw [lineStep_cons hs hr]
    exact returnedPast_giveBack

/-- The operation of caller `g` is settled, or it has returned with no admission error. -/
structure SettledRun (g : Nat) (t : State) : Prop where
  lines : ∀ a, t.slot g = .active a → Settled t.ready a.rest
  result : t.slot g = .idle → ReturnedPast g t

theorem lineStep_settledRun (h : SettledRun g t) : SettledRun g (t.lineStep g) := by
  obtain ⟨hlines, hresult⟩ := h
  cases hs : t.slot g with
  | idle => rw [show t.lineStep g = t by simp only [State.lineStep, hs]]; exact ⟨hlines, hresult⟩
  | active a =>
    have hset := hlines a hs
    cases hr : a.rest with
    | nil => rw [hr] at hset; cases hset
    | cons l ls =>
      rw [hr] at hset
      refine ⟨fun b hb => ?_, lineStep_returnedPast hs hr hset.1⟩
      have hres := lineStep_result g t
      generalize t.lineStep g = u at hres hb ⊢
      cases hres with
      | stays => cases hs.symm.trans hb; rwa [hr]
      | drained => simp at hb
      | ends => simp at hb
      | moves c x xs env hc hrest hpass =>
        cases hs.symm.trans hc
        cases hr.symm.trans hrest
        rw [slot_setSlot, if_pos rfl] at hb
        cases hb
        exact settled_write (settled_following hpass hset)

theorem runLines_settledRun (fuel : Nat) (hs : s.slot g = .active a) (h : Settled s.ready a.rest) :
    SettledRun g (s.runLines fuel g) :=
  runLines_keeps (P := SettledRun g) (fun _ => lineStep_settledRun) fuel s
    ⟨fun b hb => by cases hs.symm.trans hb; exact h, fun hidle => by cases hidle.symm.trans hs⟩

end

/-! ### Clean failures (R194, R263) -/

/-- What the call of `i` from `s` has left in `t` if it has returned an error (R194). -/
def CleanFailure (s : State) (i : Instr) (t : State) : Prop :=
  ∀ e, t.slot s.cur = .idle → (t.caller s.cur).result = some (.err e) →
    (e = .invalidArgument ∨ e = .notReady ∨ e = .powerDisabled ∨ e = .limitExceeded ∨ e = .notFound →
      t.log = s.log ++ [⟨s.cur, .ret i (.err e)⟩] ∧ sameBlock s t) ∧
    (e = .faultLatched → sameBlock s t ∧
      t.log = s.log ++ [⟨s.cur, exchange (statusBuf s.params.codes) (s.answer 0)⟩, ⟨s.cur, .ret i (.err e)⟩])

section
variable {s t u : State} {i op : Instr} {evs : List Event} {n k : Nat} {d : Dev} {x : Option Answer} {a : Activation}
  {ls : List Line} {dev : U32}

theorem returned_result (s : State) (op : Instr) (evs : List Event) (r : Result) (n : Nat) :
    ((s.returned op evs r n).caller s.cur).result = some r := by
  simp [State.returned, State.caller]

/-- An operation still in progress has not failed. -/
theorem cleanFailure_of_active (h : t.slot s.cur = .active a) : CleanFailure s i t :=
  fun _ hidle => by cases hidle.symm.trans h

/-- An operation that returns with no admission error has none to answer for. -/
theorem cleanFailure_of_past (h : t.slot s.cur = .idle → ReturnedPast s.cur t) : CleanFailure s i t := by
  intro e hidle he
  obtain ⟨r, hr, hpast⟩ := h hidle
  rw [he] at hr
  cases hr
  have hlate := hpast e rfl
  refine ⟨fun hadmission => ?_, fun hfault => by rw [hfault] at hlate; cases hlate⟩
  rcases hadmission with rfl | rfl | rfl | rfl | rfl <;> cases hlate

theorem cleanFailure_of_settled {fuel : Nat} (hu : u.cur = s.cur) (h : Settled u.ready ls) :
    CleanFailure s i ((u.running evs n ⟨op, k, d, x, ls⟩).runLines fuel s.cur) := by
  have hrun := runLines_settledRun (s := u.running evs n ⟨op, k, d, x, ls⟩) fuel (running_slot ..) h
  rw [hu] at hrun
  exact cleanFailure_of_past hrun.result

/-- A failure before any event, with at most draws used up. -/
theorem cleanFailure_failed (env : Env) {e : ErrorKind} (he : e ≠ .faultLatched) :
    CleanFailure s i (State.returned { s with env := env } i [] (.err e) 0) := by
  intro e' _ he'
  obtain rfl : e = e' := by
    have := he'.symm.trans (returned_result { s with env := env } i [] (.err e) 0)
    cases this; rfl
  exact ⟨fun _ => ⟨rfl, rfl, rfl, rfl, rfl, rfl, rfl, rfl⟩, fun hfault => absurd hfault he⟩

theorem cleanFailure_armed {e : ErrorKind} (he : e ≠ .faultLatched) :
    CleanFailure s i ((s.armedFor i).returned i [] (.err e) 0) := by
  unfold State.armedFor
  split
  next => split <;> exact cleanFailure_failed _ he
  next => exact cleanFailure_failed s.env he

/-- A latched fault, found by the status read. -/
theorem cleanFailure_fault :
    CleanFailure s i (s.returned i [exchange (statusBuf s.params.codes) (s.answer 0)] (.err .faultLatched) 1) := by
  intro e _ he
  obtain rfl : e = .faultLatched := by
    have := he.symm.trans (returned_result ..)
    cases this; rfl
  exact ⟨nofun, fun _ => ⟨⟨rfl, rfl, rfl, rfl, rfl, rfl, rfl⟩, rfl⟩⟩

/-- The outcome of a command's transceive is no admission error. -/
theorem cleanFailure_command (ans : Answer) : CleanFailure s i (s.returned i evs (commandResult ans) n) := by
  refine cleanFailure_of_past fun _ => ⟨_, returned_result .., fun e he => ?_⟩
  cases ans <;> cases he
  rfl

theorem cleanFailure_unsent (h : Unsent s i t) : CleanFailure s i t := by
  rcases h with ⟨e, rfl, he⟩ | ⟨a, rfl⟩
  · exact cleanFailure_failed s.env he
  · exact cleanFailure_of_active (running_slot ..)

/-! ### By the kind of operation -/

theorem cleanFailure_going {f : Frame} (hs : s.slot s.cur = .idle) (harmed : s.armedFor i = s)
    (hexec : exec i s = call i (.checkDev dev :: .checkReady :: .checkPower :: (sendLines f ++ [.returnUnit])) s)
    (h : exec i s = .next t) : CleanFailure s i t := by
  rcases command_cases hs harmed hexec h with hunsent | ⟨d, -, -, -, rfl⟩
  · exact cleanFailure_unsent hunsent
  · exact cleanFailure_command _

theorem cleanFailure_limited {limit : Line} {bound : Dev → Nat} {value : Nat} {f : Frame} (hs : s.slot s.cur = .idle)
    (harmed : s.armedFor i = s) (hlimit : ∀ d, LimitsTo s d limit (bound d) value)
    (hexec : exec i s = call i (limitedLines s.params.codes dev limit f) s) (h : exec i s = .next t) : CleanFailure s i t := by
  rcases limited_cases hs harmed hlimit hexec h with hunsent | ⟨d, -, -, -, -, rfl⟩
  · exact cleanFailure_unsent hunsent
  · split
    · exact cleanFailure_fault
    · exact cleanFailure_command _

/-- On a ready chain, with its index in range, no line of an ungated operation on a device raises an admission error. -/
theorem program_settled {p : Params} (hp : program p i = some ls) (hdev : devOperand i = some dev) (hg : powerGated i = false)
    (hd : dev.toNat < 2) : Settled true ls := by
  have command (f : Frame) : Settled true (.checkDev dev :: .checkReady :: (sendLines f ++ [.returnUnit])) :=
    ⟨⟨rfl, hd⟩, .inr ⟨rfl, .inr ⟨trivial, .inr ⟨trivial, .inr ⟨trivial, .inl rfl⟩⟩⟩⟩⟩
  have read {f : Frame} {l : Line} (hl : l.pastAdmission true) (hret : l.returns = true) :
      Settled true [.checkDev dev, .checkReady, .emit f, l] :=
    ⟨⟨rfl, hd⟩, .inr ⟨rfl, .inr ⟨trivial, .inr ⟨hl, .inl hret⟩⟩⟩⟩
  cases i with
  | isBusy | getAbsPos => cases hp; cases hdev; exact read trivial rfl
  | waitWhileBusy => cases hp; cases hdev; exact ⟨⟨rfl, hd⟩, .inr ⟨⟨rfl, hd⟩, .inl rfl⟩⟩
  | resetPos | softStop | hardStop | disableOutputs => cases hp; cases hdev; exact command _
  | applyModelParams =>
    cases hp; cases hdev
    exact settled_append (applyLines_pastAdmission rfl hd) ⟨trivial, .inl rfl⟩
  | run | move | goto | gotoDir | goHome => cases hg
  | _ => cases hdev

theorem cleanFailure_device (hs : s.slot s.cur = .idle) (hdev : devOperand i = some dev) (hg : powerGated i = false)
    (hp : program s.params i = some ls) (h : exec i s = .next t)
    (ht : t = (s.running [] 0 ⟨i, 0, 0, none, ls⟩).runLines s.callFuel s.cur) : CleanFailure s i t := by
  obtain ⟨⟨houtside, hunready⟩, -⟩ := admissionOrder s i dev hs hdev
  by_cases hd : dev.toNat < 2
  · cases hready : s.ready with
    | true => rw [ht]; exact cleanFailure_of_settled rfl (by rw [hready]; exact program_settled hp hdev hg hd)
    | false =>
      rw [hunready hd hready] at h
      cases h
      exact cleanFailure_armed nofun
  · rw [houtside (Nat.not_lt.mp hd)] at h
    cases h
    exact cleanFailure_failed s.env nofun

/-- A test of which a failure ends the operation before any event. -/
theorem cleanFailure_test {p : Prop} [Decidable p] {fuel : Nat} {env : Env} {e : ErrorKind} {next : State}
    (hnext : p → CleanFailure s i (next.runLines fuel s.cur)) (he : e ≠ .faultLatched) :
    CleanFailure s i ((if p then next else State.returned { s with env := env } i [] (.err e) 0).runLines fuel s.cur) := by
  split
  next h => exact hnext h
  next =>
    rw [runLines_returned { s with env := env } _ _ rfl]
    exact cleanFailure_failed env he

/-- The test of an axis, the first line of the operations on the catalog. -/
theorem cleanFailure_axis {axis : U32} {fuel : Nat}
    (hnext : ∀ d, CleanFailure s i ((s.running [] 0 ⟨i, 1, d, none, ls⟩).runLines fuel s.cur)) :
    CleanFailure s i ((s.running [] 0 ⟨i, 0, 0, none, .checkAxis axis :: ls⟩).runLines (fuel + 1) s.cur) := by
  rw [runLines_running _ _ _ _ rfl]
  by_cases haxis : axis.toNat < 2
  · rw [line_checkAxis (e := ⟨axis.toNat, haxis⟩) rfl rfl]
    exact hnext _
  · rw [line_checkAxis_outside (Nat.not_lt.mp haxis) rfl, runLines_returned _ _ _ rfl]
    exact cleanFailure_failed s.env nofun

/-- The test of the power pin, and of there being one. -/
theorem cleanFailure_powerPin {fuel : Nat} (h : Settled s.ready ls) :
    CleanFailure s i ((s.running [] 0 ⟨i, k, d, none, .checkPowerPin :: ls⟩).runLines (fuel + 1) s.cur) := by
  rw [runLines_running _ _ _ _ rfl, line_checkPowerPin rfl]
  split
  · rw [runLines_returned _ _ _ rfl]
    exact cleanFailure_failed s.env nofun
  · exact cleanFailure_test (env := s.takePowerPin.env) (fun _ => cleanFailure_of_settled rfl h) nofun

/-- The operations without a device test the chain, a pin or the catalog before they do anything. -/
theorem cleanFailure_system (hdev : devOperand i = none) (hp : program s.params i = some ls) :
    CleanFailure s i ((s.running [] 0 ⟨i, 0, 0, none, ls⟩).runLines s.callFuel s.cur) := by
  rw [State.callFuel]
  cases i with
  | getStatusAll =>
    cases hp
    rw [getStatusAllLines, runLines_running _ _ _ _ rfl, line_checkReady rfl]
    exact cleanFailure_test (env := s.env) (fun _ => cleanFailure_of_settled rfl ⟨trivial, .inr ⟨trivial, .inl rfl⟩⟩) nofun
  | init =>
    cases hp
    rw [initLines, runLines_running _ _ _ _ rfl, line_checkTransport rfl]
    exact cleanFailure_test (env := s.takeTransportReady.env)
      (fun _ => cleanFailure_of_settled rfl ⟨trivial, .inr ⟨trivial, .inl rfl⟩⟩) nofun
  | powerEnable =>
    cases hp
    rw [powerEnableLines, runLines_running _ _ _ _ rfl, line_checkReady rfl]
    exact cleanFailure_test (env := s.env)
      (fun hready => cleanFailure_powerPin ⟨trivial, .inr ⟨hready, .inr ⟨hready, .inr ⟨trivial, .inl rfl⟩⟩⟩⟩) nofun
  | powerDisable =>
    cases hp
    exact cleanFailure_powerPin ⟨trivial, .inr ⟨trivial, .inl rfl⟩⟩
  | reset =>
    cases hp
    have hset : Settled s.ready (resetLines s.params).tail :=
      ⟨trivial, .inr ⟨trivial, .inr ⟨trivial, .inr ⟨trivial, .inr ⟨trivial, .inr ⟨trivial, .inr ⟨trivial, .inl rfl⟩⟩⟩⟩⟩⟩⟩
    rw [resetLines, runLines_running _ _ _ _ rfl, line_checkResetPin rfl]
    exact cleanFailure_test (env := s.takeResetPin.env) (fun _ => cleanFailure_of_settled rfl hset) nofun
  | setActiveModel axis index =>
    cases hp
    refine cleanFailure_axis fun d => ?_
    rw [runLines_running _ _ _ _ rfl, line_findIndex index rfl]
    split
    · exact cleanFailure_of_settled rfl ⟨trivial, .inr ⟨trivial, .inr ⟨trivial, .inl rfl⟩⟩⟩
    · rw [runLines_returned _ _ _ rfl]
      exact cleanFailure_failed s.env nofun
  | setActiveModelByName axis name =>
    cases hp
    refine cleanFailure_axis fun d => ?_
    rw [runLines_running _ _ _ _ rfl, line_findName name rfl]
    split
    · exact cleanFailure_of_settled rfl ⟨trivial, .inr ⟨trivial, .inr ⟨trivial, .inl rfl⟩⟩⟩
    · rw [runLines_returned _ _ _ rfl]
      exact cleanFailure_failed s.env nofun
  | getActiveModel axis =>
    cases hp
    exact cleanFailure_axis fun d => cleanFailure_of_settled rfl ⟨trivial, .inl rfl⟩
  | isBusy | getAbsPos | waitWhileBusy | run | move | goto | gotoDir | goHome | resetPos | softStop | hardStop | disableOutputs
  | applyModelParams => cases hdev
  | _ => cases hp

/-- The gated commands. -/
theorem cleanFailure_gated (hs : s.slot s.cur = .idle) (hg : powerGated i = true) (h : exec i s = .next t) : CleanFailure s i t := by
  cases i with
  | run dev dir speed =>
    exact cleanFailure_limited (f := packRun 0 dir speed) hs rfl (fun d => checkSpeed_limitsTo s d speed) rfl h
  | move dev dir steps =>
    exact cleanFailure_limited (f := packMove 0 dir steps) hs rfl (fun d => checkSteps_limitsTo s d steps) rfl h
  | goto | gotoDir | goHome => exact cleanFailure_going hs rfl rfl h
  | _ => cases hg

theorem exec_cleanFailure (hi : i.isCall = true) (h : exec i s = .next t) : CleanFailure s i t := by
  cases exec_result h with
  | evaluates v hp =>
    rw [← program_isSome s.params, hp] at hi
    cases hi
  | waits a hs => exact cleanFailure_of_active hs
  | transmits a f hs hl => exact cleanFailure_of_active (by rw [slot_transmit, if_pos rfl])
  | runs ls hs hp hm =>
    cases hg : powerGated i with
    | true => exact cleanFailure_gated hs hg h
    | false =>
      have hrun := beginCall_eq_running s i ls
      cases hdev : devOperand i with
      | some dev => exact cleanFailure_device hs hdev hg hp h (by rw [hrun])
      | none => rw [hrun]; exact cleanFailure_system hdev hp

end

/-- No instruction changes the current caller. -/
theorem exec_cur {s t : State} {i : Instr} (h : exec i s = .next t) : t.cur = s.cur := by
  cases exec_result h with
  | runs ls =>
    refine runLines_keeps (P := fun u => u.cur = s.cur) (fun u hu => ?_) s.callFuel _ rfl
    have hres := lineStep_result s.cur u
    generalize u.lineStep s.cur = v at hres ⊢
    cases hres with
    | stays => exact hu
    | drained | ends => exact hu
    | moves a l ls env => exact (write_cur ..).trans hu
  | _ => rfl

/-- Settles O37: each operation tests what it needs before its first event, and raises no admission error after it. -/
theorem admissionFailuresAreClean : Obligations.AdmissionFailuresAreClean := by
  intro s t i e hi h hidle he
  rw [exec_cur h] at hidle he
  exact exec_cleanFailure hi h e hidle he

end Sys2Proof.Machine

/-! PROOF. Initialisation, power, reset and configuration (O26, O39 to O46). -/

namespace Sys2Proof.Machine

/-! ### The ten register writes (R227, R228, R230) -/

theorem fmtReg16_eq_bytes (b : Byte) (v : U16) :
    fmtReg16 b v = ⟨b, BitVec.ofNat 8 (v.toNat / 256), BitVec.ofNat 8 v.toNat, 0#8⟩ := by
  simp only [fmtReg16, BitVec.extractLsb', Nat.shiftRight_eq_div_pow, Nat.reducePow, Nat.div_one]

/-- The SET_PARAM instructions of R227's table, in its order. -/
def paramInstrs (m : MotorModel) : List Instr :=
  [.frameSetParamStepMode (encodeMicrostepExponent m.microstep), .frameSetParamKvalHold m.kvalHold,
   .frameSetParamKvalRun m.kvalRun, .frameSetParamKvalAcc m.kvalAcc, .frameSetParamKvalDec m.kvalDec,
   .frameSetParamOcdTh (encodeOcdThresholdMa m.ocdThresholdMa), .frameSetParamAcc (encodeAccDec m.acc),
   .frameSetParamDec (encodeAccDec m.dec), .frameSetParamMaxSpeed (encodeMaxSpeed m.maxSpeed),
   .frameSetParamStallTh (encodeStallThresholdMa m.stallThresholdMa)]

theorem encode_paramInstrs (c : Codes) (m : MotorModel) :
    (paramInstrs m).map (encodeFrame c) = (paramFrames c m).map some := by
  simp only [paramInstrs, paramFrames, List.map, encodeFrame, fmtReg16_eq_bytes, fmtReg8]

theorem paramInstrs_wellFormed (m : MotorModel) : ∀ i ∈ paramInstrs m, i.wellFormed = true := by
  simp [paramInstrs, Instr.wellFormed, microstepCode_le, one_le_ocdCode, ocdCode_le, accDecCode_le, maxSpeedCode_le,
    one_le_stallCode, stallCode_le]

theorem paramFrames_decode {c : Codes} (hl : c.legal = true) {m : MotorModel} {f : Frame} (hf : f ∈ paramFrames c m) :
    ∃ i, decodeFrame c f = .ok i ∧ i.wellFormed = true := by
  have hmem : some f ∈ (paramInstrs m).map (encodeFrame c) := by
    rw [encode_paramInstrs]; exact List.mem_map_of_mem hf
  obtain ⟨i, hi, he⟩ := List.mem_map.mp hmem
  exact ⟨i, decodeFrame_of_encodeFrame hl he, paramInstrs_wellFormed m i hi⟩

/-- The ten opcode bytes are ten of the 26 that legal codes keep distinct. -/
theorem paramFrames_nodup {c : Codes} (hl : c.legal = true) (m : MotorModel) : ((paramFrames c m).map Frame.b0).Nodup := by
  have hperm : ((paramFrames c m).map Frame.b0).Perm ((c.emittedOpcodes.drop 3).take 10) := by
    refine List.perm_iff_count.mpr fun b => ?_
    simp only [paramFrames, Codes.emittedOpcodes, Codes.singleOpcodes, List.map, List.drop, List.take, List.count_cons]
    omega
  exact hperm.nodup_iff.mpr ((Laws.RoundTrip.legal_nodup hl).sublist ((List.take_sublist ..).trans (List.drop_sublist ..)))

theorem regWriteFrame_one (c : Codes) (d : Dev) (reg v : Byte) :
    regWriteFrame c d ⟨reg, .one, v.setWidth 32⟩ = ⟨c.opcSetParam ||| reg, v, 0#8, 0#8⟩ :=
  congrArg (Frame.mk _ · 0#8 0#8) (packRegisterWrite1_value d reg v)

theorem regWriteFrame_two (c : Codes) (d : Dev) (reg : Byte) (v : U16) :
    regWriteFrame c d ⟨reg, .two, v.setWidth 32⟩ =
      ⟨c.opcSetParam ||| reg, BitVec.ofNat 8 (v.toNat / 256), BitVec.ofNat 8 v.toNat, 0#8⟩ := by
  rw [← fmtReg16_eq_bytes, regWriteFrame, packRegisterWrite2_eq, BitVec.setWidth_setWidth_of_le v (by decide),
    BitVec.setWidth_eq]

theorem regWriteFrames_eq (c : Codes) (m : MotorModel) : (paramWrites c m).map (regWriteFrame c 0) = paramFrames c m := by
  simp only [paramWrites, paramFrames, List.map, regWriteFrame_one, regWriteFrame_two]

/-- Settles O26: each frame encodes a SET_PARAM instruction whose value the encoders keep in its field. -/
theorem rearmWritesFitTheirFields : Obligations.RearmWritesFitTheirFields := fun _ m hl =>
  ⟨fun _ hf => paramFrames_decode hl hf, paramFrames_nodup hl m, regWriteFrames_eq _ m⟩

/-! ### A model applied to a device (R222, R228) -/

theorem applyLines_eq (c : Codes) (dev : U32) (m : MotorModel) :
    applyLines c dev m = .checkDev dev :: .checkReady :: (paramFrames c m).flatMap sendLines := by
  rw [← regWriteFrames_eq, List.flatMap_map]; rfl

theorem txOf_paramFrames {c : Codes} (hl : c.legal = true) (d : Dev) (m : MotorModel) :
    (paramFrames c m).map (txOf c d) = paramBufs c d m :=
  List.map_congr_left fun f hf => txOf_single hl d (paramFrames_mem c m f hf)

theorem rearmBufs_eq (s : State) (d : Dev) : s.rearmBufs d =
    match s.activeModel d with
    | some m => paramBufs s.params.codes d m
    | none => [] := rfl

theorem exchanges_congr {s t : State} (h : ∀ k, s.answer k = t.answer k) (bufs : List Buf) (n : Nat) :
    s.exchanges n bufs = t.exchanges n bufs := by
  induction bufs generalizing n with
  | nil => rfl
  | cons b bufs ih => rw [State.exchanges, State.exchanges, h, ih]

/-- From the state `s`, the lines `xs` make the transfers `bufs`, and the first that fails ends their operation;
`m` lines suffice. -/
def Transfers (s : State) (xs : List Line) (bufs : List Buf) (m : Nat) : Prop :=
  ∀ op evs n k d r ls fuel, let t := (s.running evs n ⟨op, k, d, r, xs ++ ls⟩).runLines (fuel + m) s.cur
    ((∀ i < bufs.length, failed (s.answer (n + i)) = false) → ∃ k' d' r' fuel', fuel ≤ fuel' ∧
      t = (s.running (evs ++ s.exchanges n bufs) (n + bufs.length) ⟨op, k', d', r', ls⟩).runLines fuel' s.cur) ∧
    (∀ j e, j < bufs.length → (∀ i < j, failed (s.answer (n + i)) = false) → s.answer (n + j) = .err e →
      t = s.returned op (evs ++ s.exchanges n (bufs.take (j + 1))) (.err (.transportError e)) (n + j + 1))

section
variable {s : State} {xs ys : List Line} {bs cs : List Buf} {m m' : Nat}

/-- One sequence of transfers after another. -/
theorem Transfers.append (h : Transfers s xs bs m) (h' : Transfers s ys cs m') : Transfers s (xs ++ ys) (bs ++ cs) (m + m') := by
  intro op evs n k d r ls fuel t
  have ht : t = (s.running evs n ⟨op, k, d, r, xs ++ (ys ++ ls)⟩).runLines (fuel + m' + m) s.cur := by
    rw [← List.append_assoc, Nat.add_assoc, Nat.add_comm m']
  obtain ⟨hok, herr⟩ := h op evs n k d r (ys ++ ls) (fuel + m')
  rw [← ht] at hok herr
  have reaches (hall : ∀ i < bs.length, failed (s.answer (n + i)) = false) : ∃ k' d' r' fuel', fuel ≤ fuel' ∧
      t = (s.running (evs ++ s.exchanges n bs) (n + bs.length) ⟨op, k', d', r', ys ++ ls⟩).runLines (fuel' + m') s.cur := by
    obtain ⟨k', d', r', fuel', hle, hrun⟩ := hok hall
    exact ⟨k', d', r', fuel' - m', by omega, by rw [hrun, Nat.sub_add_cancel (by omega)]⟩
  refine ⟨fun hall => ?_, fun j e hj hbefore hfail => ?_⟩
  · rw [List.length_append] at hall ⊢
    obtain ⟨k', d', r', fuel', hle, hrun⟩ := reaches fun i hi => hall i (by omega)
    obtain ⟨k'', d'', r'', fuel'', hle', hrun'⟩ := (h' op _ _ k' d' r' ls fuel').1 fun i hi => by
      rw [Nat.add_assoc]; exact hall (bs.length + i) (by omega)
    exact ⟨k'', d'', r'', fuel'', hle.trans hle', by
      rw [hrun, hrun', exchanges_append, List.append_assoc, Nat.add_assoc]⟩
  · by_cases hlt : j < bs.length
    · rw [herr j e hlt hbefore hfail, List.take_append_of_le_length hlt]
    · obtain ⟨i, rfl⟩ : ∃ i, j = bs.length + i := ⟨j - bs.length, by omega⟩
      rw [List.length_append] at hj
      obtain ⟨k', d', r', fuel', -, hrun⟩ := reaches fun i hi => hbefore i (by omega)
      have hrun' := (h' op (evs ++ s.exchanges n bs) _ k' d' r' ls fuel').2 i e (by omega)
        (fun p hp => by rw [Nat.add_assoc]; exact hbefore (bs.length + p) (by omega)) (by rw [Nat.add_assoc]; exact hfail)
      rw [hrun, hrun', Nat.add_assoc bs.length, List.take_length_add_append, exchanges_append, List.append_assoc,
        Nat.add_assoc n]

/-- The outcome of an operation that ends with a sequence of transfers. -/
theorem Transfers.returns (h : Transfers s xs bs m) (op : Instr) (evs : List Event) (k : Nat) (d : Dev) (fuel : Nat) :
    let t := (s.running evs 0 ⟨op, k, d, none, xs ++ [.returnUnit]⟩).runLines (fuel + 1 + m) s.cur
    ((∀ i < bs.length, failed (s.answer i) = false) → t = s.returned op (evs ++ s.exchanges 0 bs) (.ok .unit) bs.length) ∧
    (∀ j e, j < bs.length → (∀ i < j, failed (s.answer i) = false) → s.answer j = .err e →
      t = s.returned op (evs ++ s.exchanges 0 (bs.take (j + 1))) (.err (.transportError e)) (j + 1)) := by
  obtain ⟨hok, herr⟩ := h op evs 0 k d none [.returnUnit] (fuel + 1)
  simp only [Nat.zero_add] at hok herr
  refine ⟨fun hall => ?_, herr⟩
  obtain ⟨k', d', r', fuel', hle, hrun⟩ := hok hall
  obtain ⟨fuel', rfl⟩ : ∃ q, fuel' = q + 1 := ⟨fuel' - 1, by omega⟩
  rw [hrun, runLines_running _ _ _ _ rfl, line_returnUnit rfl, runLines_returned _ _ _ rfl]

/-- Applying a model to a device in range of a ready chain makes its ten transfers. -/
theorem transfers_apply (hl : s.lockOpen s.cur = true) (hlegal : s.params.codes.legal = true) (hready : s.ready = true)
    {dev : U32} {d : Dev} (hd : dev.toNat = d.val) (m : MotorModel) :
    Transfers s (applyLines s.params.codes dev m) (paramBufs s.params.codes d m) 22 := by
  intro op evs n k d' r ls fuel t
  have ht : t = (s.running evs n ⟨op, k + 2, d, r, (paramFrames s.params.codes m).flatMap sendLines ++ ls⟩).runLines
      (fuel + 2 * (paramFrames s.params.codes m).length) s.cur := by
    simp only [t, applyLines_eq, List.cons_append]
    rw [runLines_running _ _ _ _ rfl, line_checkDev hd rfl, runLines_running _ _ _ _ rfl, line_checkReady rfl, if_pos hready]
    rfl
  rw [ht, ← txOf_paramFrames hlegal, List.length_map]
  refine ⟨fun hok => ?_, fun j e hj hok herr => sends_err rfl hl op d ls _ j n evs _ r fuel hj hok herr⟩
  obtain ⟨r', hrun⟩ := sends_ok rfl hl op d ls _ n evs (k + 2) r fuel hok
  exact ⟨_, d, r', fuel, le_rfl, hrun⟩

/-- The re-arm of an axis makes the transfers of its active model, or none. -/
theorem transfers_rearm (hl : s.lockOpen s.cur = true) (hlegal : s.params.codes.legal = true) (hready : s.ready = true)
    (axis : Dev) : Transfers s [.rearm axis] (s.rearmBufs axis) 23 := by
  have hdev : (BitVec.ofNat 32 axis.val).toNat = axis.val := toNat_ofNat_of_le axis.is_le (by decide)
  intro op evs n k d r ls fuel
  rw [List.cons_append, List.nil_append, runLines_running _ _ _ _ rfl, line_rearm axis rfl, rearmBufs_eq]
  cases s.activeModel axis with
  | none => exact ⟨fun _ => ⟨k + 1, d, r, fuel + 22, by omega, by simp [State.exchanges]⟩, nofun⟩
  | some m => exact transfers_apply hl hlegal hready hdev m op evs n (k + 1) d r ls fuel

end

/-- Settles O43: the prologue, then the ten writes. -/
theorem applyWritesTenRegisters : Obligations.ApplyWritesTenRegisters := by
  intro s dev m hs op bufs
  have hexec : exec op s = call op (applyLines s.params.codes dev m ++ [.returnUnit]) s := rfl
  refine ⟨prologueErrors_of_call hs rfl rfl, fun d ⟨_, hl, hlegal⟩ hready hd => ?_⟩
  obtain ⟨hok, herr⟩ := (transfers_apply hl hlegal hready hd m).returns op [] 0 0 (8 * s.deadlineCount + 41)
  rw [hexec, call_idle hs]
  exact ⟨fun h => congrArg _ (hok h), fun j e hj h he => congrArg _ (herr j e hj h he)⟩

/-! ### Initialisation, power and reset (R220 to R226) -/

/-- Settles O39: the transport's answer, and then the flag. -/
theorem initSetsReady : Obligations.InitSetsReady := by
  intro s hs
  have hexec : exec .init s = call .init initLines s := rfl
  rw [hexec, call_idle hs, State.callFuel]
  simp only [initLines, runLines_running, line_checkTransport]
  refine ⟨fun hready => ?_, fun hready => ?_⟩
  · simp only [hready, if_true, takeTransportReady_cur, runLines_running, line_setReady, line_returnUnit, runLines_returned]
  · simp only [hready, Bool.false_eq_true, if_false, takeTransportReady_cur, runLines_returned]

/-- Settles O40: readiness, the pin's tests, then the pin and the re-arm of both axes. -/
theorem powerEnableRearms : Obligations.PowerEnableRearms := by
  intro s hs bufs on
  refine ⟨fun hready => call_notReady hs hready _ _, ?_⟩
  have hexec : exec .powerEnable s = call .powerEnable powerEnableLines s := rfl
  rw [hexec, call_idle hs, State.callFuel]
  simp only [powerEnableLines, runLines_running, line_checkReady]
  refine ⟨fun hready hpin => ?_, fun hready hpin hoff => ?_, fun ⟨_, hl, hlegal⟩ hready hpin hon => ?_⟩
  · simp only [hready, if_true, runLines_running, line_checkPowerPin, hpin, Bool.not_false, runLines_returned]
  · simp only [hready, if_true, runLines_running, line_checkPowerPin, hpin, Bool.not_true, Bool.false_eq_true, if_false, hoff,
      takePowerPin_cur, runLines_returned]
  · have htransfers : Transfers on ([.rearm 0] ++ [.rearm 1]) bufs (23 + 23) :=
      (transfers_rearm (s := on) hl hlegal hready 0).append (transfers_rearm (s := on) hl hlegal hready 1)
    obtain ⟨hok, herr⟩ := htransfers.returns .powerEnable [.powerPin true] 3 0 (8 * s.deadlineCount + 14)
    simp only [exchanges_congr (s := on) (t := s) fun _ => rfl] at hok herr
    rw [if_pos hready, runLines_running _ _ _ _ rfl, line_checkPowerPin rfl, hpin, hon, Bool.not_true, if_neg Bool.false_ne_true,
      if_pos rfl, runLines_running _ _ _ _ (takePowerPin_cur s), line_switchPower true (takePowerPin_cur s)]
    exact ⟨fun h => congrArg _ (hok h), fun j e hj h he => congrArg _ (herr j e hj h he)⟩

/-- Settles O41: the pin's test is the only one. -/
theorem powerDisableNeedsOnlyThePin : Obligations.PowerDisableNeedsOnlyThePin := by
  intro s hs
  have hexec : exec .powerDisable s = call .powerDisable powerDisableLines s := rfl
  rw [hexec, call_idle hs, State.callFuel]
  simp only [powerDisableLines, runLines_running, line_checkPowerPin]
  refine ⟨fun hpin => ?_, fun hpin hoff => ?_, fun hpin hon => ?_⟩
  · simp only [hpin, Bool.not_false, if_true, runLines_returned]
  · simp only [hpin, hoff, Bool.not_true, Bool.false_eq_true, if_false, takePowerPin_cur, runLines_returned]
  · simp only [hpin, hon, Bool.not_true, Bool.false_eq_true, if_false, if_true, takePowerPin_cur, runLines_running,
      line_switchPower, List.nil_append, line_returnUnit, runLines_returned]

/-- Settles O42: the pin's test, then the sequence under the lock. -/
theorem deviceResetPulsesThePin : Obligations.DeviceResetPulsesThePin := by
  intro s hs
  have hexec : exec .reset s = call .reset (resetLines s.params) s := rfl
  rw [hexec, call_idle hs, State.callFuel]
  simp only [resetLines, runLines_running, line_checkResetPin]
  refine ⟨fun hl hready => ?_, fun hready => ?_⟩
  · have hl' : s.takeResetPin.lockOpen s.cur = true := hl
    simp only [hready, if_true, takeResetPin_cur, runLines_running, line_acquireLock hl', line_driveReset, line_sleep,
      line_releaseLock, line_returnUnit, runLines_returned, List.cons_append, List.nil_append]
  · simp only [hready, Bool.false_eq_true, if_false, takeResetPin_cur, runLines_returned]

/-! ### Model selection (R232 to R234) -/

section
variable {s : State} {op : Instr} {axis i : U32} {ls : List Line}

/-- An unknown axis ends an operation at its first line. -/
theorem call_axis_outside (hs : s.slot s.cur = .idle) (haxis : 2 ≤ axis.toNat) :
    call op (.checkAxis axis :: ls) s = .next (s.returned op [] (.err .notFound) 0) := by
  rw [call_idle hs, State.callFuel]
  simp only [runLines_running, line_checkAxis_outside haxis, runLines_returned]

/-- Where the catalog has no such entry, a selection ends with NotFound, whatever the axis. -/
theorem call_select_missing (hs : s.slot s.cur = .idle) {find : Line}
    (hfind : ∀ d, (s.running [] 0 ⟨op, 1, d, none, [find, .returnUnit]⟩).lineStep s.cur =
      s.returned op [] (.err .notFound) 0) :
    call op [.checkAxis axis, find, .returnUnit] s = .next (s.returned op [] (.err .notFound) 0) := by
  by_cases haxis : axis.toNat < 2
  · rw [call_idle hs, State.callFuel]
    simp only [runLines_running, line_checkAxis (e := ⟨axis.toNat, haxis⟩) rfl, hfind, runLines_returned]
  · exact call_axis_outside hs (Nat.not_lt.mp haxis)

/-- An entry that is found is selected and persisted. -/
theorem call_select_found (hs : s.slot s.cur = .idle) {d : Dev} (haxis : axis.toNat = d.val) {find : Line}
    (hfind : (s.running [] 0 ⟨op, 1, d, none, [find, .returnUnit]⟩).lineStep s.cur =
      s.running [] 0 ⟨op, 2, d, none, [.setAxis i, .persist i, .returnUnit]⟩) :
    call op [.checkAxis axis, find, .returnUnit] s =
      .next ((s.setAxisModel d i).returned op [.persist d i] (.ok .unit) 0) := by
  rw [call_idle hs, State.callFuel]
  simp only [runLines_running, line_checkAxis haxis, hfind, line_setAxis, setAxisModel_cur, line_persist, List.nil_append,
    line_returnUnit, runLines_returned]

end

/-- Settles O44: the axis, then the index. -/
theorem setActiveModelSelects : Obligations.SetActiveModelSelects := by
  intro s axis index hs op
  have missing (h : s.params.catalog.length ≤ index.toNat) : exec op s = .next (s.returned op [] (.err .notFound) 0) := by
    have hnone : lookupByIndex s.params.catalog index = none := List.getElem?_eq_none h
    exact call_select_missing hs fun d => by rw [line_findIndex index rfl, hnone]
  have found {d : Dev} (haxis : axis.toNat = d.val) (h : index.toNat < s.params.catalog.length) :
      exec op s = .next ((s.setAxisModel d index).returned op [.persist d index] (.ok .unit) 0) := by
    have hsome : lookupByIndex s.params.catalog index = some s.params.catalog[index.toNat] := List.getElem?_eq_getElem h
    exact call_select_found hs haxis (by rw [line_findIndex index rfl, hsome])
  refine ⟨fun hlegal hcount => missing ?_, ?_, found (d := 0), found (d := 1)⟩
  · rwa [BitVec.le_def, catalogCount_toNat hlegal] at hcount
  · rintro (haxis | h)
    · exact call_axis_outside hs haxis
    · exact missing h

/-- Settles O45: the axis, then the name. -/
theorem setActiveModelByNameSelectsLeast : Obligations.SetActiveModelByNameSelectsLeast := by
  intro s axis name hs op
  refine ⟨?_, fun i m hi hname hleast => ?_⟩
  · rintro (haxis | hnone)
    · exact call_axis_outside hs haxis
    · exact call_select_missing hs fun d => by rw [line_findName name rfl, lookupByName_none hnone]
  · have hfound : lookupByName s.params.catalog name = some (i, m) := by
      rw [lookupByName_least hi hname hleast, BitVec.ofNat_toNat, BitVec.setWidth_eq]
    have found {d : Dev} (haxis : axis.toNat = d.val) :
        exec op s = .next ((s.setAxisModel d i).returned op [.persist d i] (.ok .unit) 0) :=
      call_select_found hs haxis (by rw [line_findName name rfl, hfound])
    exact ⟨found (d := 0), found (d := 1)⟩

/-- Settles O46: an axis in range has its record, or the call is refused. -/
theorem getActiveModelReads : Obligations.GetActiveModelReads := by
  intro s axis hs op
  have hexec : exec op s = if modelMissing axis s then .refused .noCatalogEntry else call op (getActiveModelLines axis) s := rfl
  refine ⟨fun haxis => ?_, fun d haxis => ?_⟩
  · have hm : modelMissing axis s = false := dif_neg (Nat.not_lt.mpr haxis)
    rw [hexec, hm]
    exact call_axis_outside hs haxis
  · have hm : modelMissing axis s = (s.activeModel d).isNone := by
      have hlt : axis.toNat < Config.nAxes := haxis ▸ d.isLt
      have hd : (⟨axis.toNat, hlt⟩ : Dev) = d := Fin.ext haxis
      rw [modelMissing, dif_pos hlt, hd]
    rw [hexec, hm]
    refine ⟨fun m h => ?_, fun h => ?_⟩
    · have hsome : s.activeModel d = some m := h
      rw [hsome, call_idle hs, State.callFuel]
      simp only [getActiveModelLines, runLines_running, line_checkAxis haxis, line_returnModel hsome, runLines_returned]
      rfl
    · have hnone : s.activeModel d = none := List.getElem?_eq_none h
      rw [hnone]
      rfl

end Sys2Proof.Machine

/-! PROOF. The reset window and the power pin: bus traffic while the lock is held, and the pin against the flag (O53, O60). -/

namespace Sys2Proof.Machine

/-! ### The reset window (R70, R71, R226, R275, R297) -/

section
variable {g : Nat} {s t : State}

theorem lockOpen_of_held (hlock : s.lock = some g) (k : Nat) : s.lockOpen k = decide (g = k) := by
  simp only [State.lockOpen, hlock, beq_eq_decide]

/-- Where no transmit line is next, a line transmits nothing. -/
theorem lineStep_untransmitted_of_not_emit (h : ∀ a f ls, s.slot g = .active a → a.rest ≠ .emit f :: ls) :
    ∃ es, (s.lineStep g).log = s.log ++ es ∧ ∀ e ∈ es, e.tx = none := by
  have hres := lineStep_result g s
  generalize s.lineStep g = t at hres ⊢
  cases hres with
  | stays => exact ⟨[], by simp⟩
  | drained => exact ⟨[], by simp⟩
  | ends a l ls r => exact ⟨[⟨g, .ret a.op r⟩], rfl, fun e he => by cases List.mem_singleton.mp he; rfl⟩
  | moves a l ls env hs hr hl =>
    exact ⟨_, write_log g a s l, events_tx fun f hf => h a f ls hs (hf ▸ hr)⟩

/-- The lock's holder is in the reset window, which has no transmit line. -/
theorem holder_not_emit (h : s.Inv) (hlock : s.lock = some g) (a : Activation) (f : Frame) (ls : List Line)
    (hs : s.slot g = .active a) : a.rest ≠ .emit f :: ls := by
  intro hr
  have hd := (h.operation hs).lock
  rw [hlock, beq_self_eq_true, hr] at hd
  cases windowLine_of_held hd

/-- While the lock is held, no step transmits: a line is the holder's, and no call begins. -/
theorem step_held_untransmitted (h : s.Inv) (hlock : s.lock = some g) (hstep : step s = .next t) :
    ∃ es, t.log = s.log ++ es ∧ ∀ e ∈ es, e.tx = none := by
  cases step_result hstep with
  | waits => exact ⟨[], by simp⟩
  | line a hs hl =>
    rw [lockOpen_of_held hlock, decide_eq_true_eq] at hl
    exact lineStep_untransmitted_of_not_emit (holder_not_emit (scheduled_inv h) (hlock.trans (congrArg some hl)))
  | evaluates v => exact ⟨[], by simp [State.popCall]⟩
  | calls i ls fuel hs hl =>
    rw [lockOpen_of_held hlock, decide_eq_true_eq] at hl
    exact absurd (hl ▸ hs) (h.lock_active g hlock)

/-- From an idle slot, an instruction that runs in no slot and has a next state is a pure function. -/
theorem isPure_of_exec_idle {i : Instr} (hs : s.slot s.cur = .idle) (hp : program s.params i = none) (h : exec i s = .next t) :
    i.isPure = true := by
  have hcall : i.isCall = false := by rw [← program_isSome s.params, hp]; rfl
  cases hf : i.isFrame with
  | false => simp [Instr.isPure, hf, hcall]
  | true =>
    rw [(framesWaitForTheLock i s hf).1 hs] at h
    cases h

/-- While another caller holds the lock, the caller picked waits or evaluates a pure function. -/
theorem step_locked_out (hl : s.lockOpen s.nextPick.caller = false) (hstep : step s = .next t) :
    t = s.scheduled ∨ ∃ i is, i.isPure = true ∧ (s.caller s.nextPick.caller).calls = i :: is ∧
      exec i s.scheduled.popCall = .next t := by
  have waits (h : step s = .next s.scheduled) : t = s.scheduled := by
    rw [h] at hstep; cases hstep; rfl
  cases hs : s.slot s.nextPick.caller with
  | active a => exact .inl (waits (step_active_waits hs hl))
  | idle =>
    cases hc : (s.caller s.nextPick.caller).calls with
    | nil => exact .inl (waits (step_no_call hs hc))
    | cons i is =>
      cases hp : program s.params i with
      | some ls => exact .inl (waits (step_call_waits hs hc (by rw [runsInSlot, hp]; rfl) hl))
      | none =>
        rw [step_call hs hc (by rw [runsInSlot, hp]; rfl), stepCall_without_lines (s := s.scheduled.popCall) hp] at hstep
        have hidle : s.scheduled.popCall.slot s.nextPick.caller = .idle := by rw [popCall_slot]; exact hs
        exact .inr ⟨i, is, isPure_of_exec_idle (s := s.scheduled.popCall) hidle hp hstep, rfl, hstep⟩

end

/-- Settles O53: by the invariant the holder is in the reset sequence, and the scheduler holds every other caller back. -/
theorem noTransceiveInTheResetWindow : Obligations.NoTransceiveInTheResetWindow := by
  intro s t h hheld hstep
  obtain ⟨g, hlock⟩ := Option.ne_none_iff_exists'.mp hheld
  refine ⟨?_, fun hother => step_locked_out ?_ hstep⟩
  · obtain ⟨es, hes, hnone⟩ := step_held_untransmitted h hlock hstep
    rw [hes, List.drop_left]
    exact hnone
  · rw [lockOpen_of_held hlock]
    exact decide_eq_false fun hg => hother (hlock.trans (congrArg some hg))

/-! ### The power pin and its flag (R225) -/

/-- The pin was last driven to the level of the flag. -/
def PinMatches (s : State) : Prop := powerPinLevel s.log = some s.powerEnabled

/-- In the run of a power operation of caller `g`: pin and flag agree, unless the pin's line is still to come or its test has
failed. -/
structure PowerRun (g : Nat) (t : State) : Prop where
  active : ∀ a, t.slot g = .active a → awaitsPin a.rest = true ∨ PinMatches t
  ended : t.slot g = .idle → (t.caller g).result = some (.err .notReady) ∨ PinMatches t

section
variable {g : Nat} {s : State} {a : Activation} {l : Line} {ls : List Line}

theorem pinMatches_write (h : PinMatches s) : PinMatches (l.write g a s) := by
  rcases write_power (g := g) (s := s) (a := a) (l := l) with ⟨on, -, hlevel, hflag⟩ | ⟨hlevel, hflag⟩
  · rw [PinMatches, hlevel, hflag]
  · rw [PinMatches, hlevel, hflag]; exact h

/-- Up to the pin's line there are only tests; that line makes pin and flag agree. -/
theorem pinMatches_following (h : awaitsPin (l :: ls) = true) :
    awaitsPin (l.following s ls) = true ∨ PinMatches (l.write g a s) := by
  cases l with
  | checkReady => exact .inl h
  | checkPowerPin => exact .inl h
  | switchPower on => exact .inr (powerPinLevel_append s.log [⟨g, .powerPin on⟩])
  | _ => cases h

theorem lineStep_powerRun (h : PowerRun g s) : PowerRun g (s.lineStep g) := by
  obtain ⟨hactive, hended⟩ := h
  have hres := lineStep_result g s
  generalize s.lineStep g = t at hres ⊢
  cases hres with
  | stays => exact ⟨hactive, hended⟩
  | drained a hs hr =>
    have hpin : PinMatches s := (hactive a hs).resolve_left (by rw [hr]; nofun)
    exact ⟨fun _ _ => .inr hpin, fun _ => .inr hpin⟩
  | ends a l ls r env hs hr hl =>
    refine ⟨by simp, fun _ => ?_⟩
    rcases hactive a hs with hawaits | hpin
    · rw [hr] at hawaits
      exact .inl (by simp [notReady_of_awaitsPin hl hawaits])
    · exact .inr ((powerPinLevel_ret ..).trans hpin)
  | moves a l ls env hs hr hl =>
    refine ⟨fun b hb => ?_, by simp⟩
    rw [slot_setSlot, if_pos rfl] at hb
    cases hb
    rcases hactive a hs with hawaits | hpin
    · rw [hr] at hawaits
      exact pinMatches_following hawaits
    · exact .inr (pinMatches_write hpin)

end

/-- A power operation run whole that has returned, and not with NotReady, leaves pin and flag in agreement. -/
theorem exec_pinMatches {s t : State} {i : Instr} (hi : drivesPower i = true) (h : exec i s = .next t)
    (hresult : (t.caller s.cur).result ≠ some (.err .notReady)) (hidle : t.slot s.cur = .idle) : PinMatches t := by
  cases exec_result h with
  | evaluates v hp => cases i <;> cases hi <;> cases hp
  | waits a hs => cases hidle.symm.trans hs
  | transmits a f => rw [slot_transmit, if_pos rfl] at hidle; cases hidle
  | runs ls hs hp =>
    have hbegin : PowerRun s.cur (s.beginCall s.cur i ls) := by
      refine ⟨fun a ha => ?_, by simp⟩
      rw [slot_beginCall, if_pos rfl] at ha
      cases ha
      exact .inl (program_awaitsPin hp hi)
    exact ((runLines_keeps (P := PowerRun s.cur) (fun _ => lineStep_powerRun) _ _ hbegin).ended hidle).resolve_left hresult

/-- Settles O60: a run of lines sets pin and flag together, and the invariant keeps them in agreement along every step. -/
theorem powerPinAgreesWithFlag : Obligations.PowerPinAgreesWithFlag := by
  refine ⟨fun s t i hi h hresult hidle => ?_, fun s t h hstep hcompleted => ?_⟩
  · rw [exec_cur h] at hresult hidle
    exact exec_pinMatches (by rcases hi with rfl | rfl <;> rfl) h hresult hidle
  · have hinv := stepKeepsInvariant s t h hstep
    exact hinv.pin_agrees.resolve_left (hinv.pin_driven.2 hcompleted)

end Sys2Proof.Machine

/-! PROOF. The status decoder: its strings, and its flags against the fault predicate (O27, O28). -/

namespace Sys2Proof.Machine

/-! ### The set flags (R250) -/

theorem map_filter_eq_flatMap {α β : Type*} (f : α → β) (p : α → Bool) (l : List α) :
    (l.filter p).map f = l.flatMap fun x => if p x then [f x] else [] := by
  induction l with
  | nil => rfl
  | cons x l ih => rw [List.flatMap_cons, ← ih, List.filter_cons]; split <;> rfl

/-- Each flag, in order, gives its name or nothing. -/
theorem setFlags_eq_flatMap (w : U16) : setFlags w = flagOrder.flatMap fun p => if w.getLsbD p.2 then [p.1] else [] :=
  map_filter_eq_flatMap ..

theorem mem_setFlags {name : String} {w : U16} : name ∈ setFlags w ↔ ∃ n, (name, n) ∈ flagOrder ∧ w.getLsbD n = true := by
  simp [setFlags]

/-! ### The hexadecimal value (R250) -/

theorem hexDigit_eq_digitChar : ∀ d : BitVec 4, hexDigit d = (Nat.digitChar d.toNat).toUpper := by decide

theorem hex4_eq_hexText (w : U16) : hex4 w = hexText w := by
  simp [hex4, hexText, hexDigit_eq_digitChar, Nat.shiftRight_eq_div_pow]

/-! ### The two strings (R251, R252) -/

theorem decodeCompact_eq (w : U16) : decodeCompact w =
    if w = 0#16 then "NO DATA" else if setFlags w = [] then hexText w else " ".intercalate (setFlags w) := by
  rw [decodeCompact, ite_not, hex4_eq_hexText]

theorem decodeVerbose_eq (w : U16) :
    decodeVerbose w = (setFlags w).foldl (fun out name => out ++ " " ++ name) (hexText w) := by
  rw [decodeVerbose, hex4_eq_hexText]

/-- Settles O27: both strings are built from the names of `flagOrder`, one for each bit that is set, and the digits of the word. -/
theorem statusStrings : Obligations.StatusStrings := by
  intro s w flag flags
  have hflags : setFlags w = flags := by
    simp [setFlags_eq_flatMap, flagOrder, flags, flag, bitOcd, bitThSd, bitUvlo, bitStepLossA, bitStepLossB, bitBusy]
  rw [← hflags, ← decodeCompact_eq, ← decodeVerbose_eq]
  exact ⟨exec_of_pureValue rfl, exec_of_pureValue rfl⟩

/-! ### The fault predicate (R36, R253) -/

theorem getLsbD_faultLatchMask (n : Nat) :
    faultLatchMask.getLsbD n = true ↔ n = bitOcd ∨ n = bitStepLossA ∨ n = bitStepLossB := by
  have hbits : ∀ n < 16, faultLatchMask.getLsbD n = true → n = bitOcd ∨ n = bitStepLossA ∨ n = bitStepLossB := by decide
  constructor
  · exact fun h => hbits n (BitVec.lt_of_getLsbD h) h
  · rintro (rfl | rfl | rfl) <;> rfl

/-- A word with a bit in common with the mask has one of the mask's three bits. -/
theorem faultLatched_iff (w : U16) : faultLatched w = true ↔
    w.getLsbD bitOcd = true ∨ w.getLsbD bitStepLossA = true ∨ w.getLsbD bitStepLossB = true := by
  have hcommon : faultLatched w = true ↔ ∃ n < 16, w.getLsbD n = true ∧ faultLatchMask.getLsbD n = true := by
    simp [faultLatched, BitVec.eq_of_getLsbD_eq_iff]
  simp only [hcommon, getLsbD_faultLatchMask]
  simp [and_or_left, exists_or, bitOcd, bitStepLossA, bitStepLossB]

/-- Settles O28: the mask's bits are those of the three named flags. -/
theorem faultLatchedAgreesWithFlags : Obligations.FaultLatchedAgreesWithFlags := fun w => by
  simp [faultLatched_iff, mem_setFlags, flagOrder]

end Sys2Proof.Machine

/-! PROOF. Every host operation returns: its lines neither wait nor run out before one that returns, and are bounded in number
(O56). -/

namespace Sys2Proof.Machine

/-! ### A caller whose operation has returned -/

/-- The operation `op` of caller `g` has returned: the slot is idle, there is a result, and its `Return` is the last event. -/
def HasReturned (g : Nat) (op : Instr) (t : State) : Prop :=
  t.slot g = .idle ∧ ∃ r, (t.caller g).result = some r ∧ t.log.getLast? = some ⟨g, .ret op r⟩

theorem hasReturned_finish (g : Nat) (op : Instr) (r : Result) (s : State) : HasReturned g op (s.finish g op r) :=
  ⟨by simp, r, by simp, by simp⟩

theorem hasReturned_returned (s : State) (op : Instr) (evs : List Event) (r : Result) (n : Nat) :
    HasReturned s.cur op (s.returned op evs r n) :=
  ⟨returned_slot .., r, returned_result .., by simp [State.returned, State.logAfter]⟩

/-! ### Lines that return, and how many there are -/

/-- Some line returns, and before it stand neither `armDeadline`, whose number of rounds is the environment's draw, nor
`returnModel`, which has no meaning without a record. -/
def returning : List Line → Bool
  | [] => false
  | .armDeadline .. :: _ | .returnModel :: _ => false
  | l :: ls => l.returns || returning ls

/-- The lines that a line stands for, with those it inlines: 22 to apply a model, two to select one, six a round of a wait. -/
def Line.weight : Line → Nat
  | .rearm _ => 23
  | .findIndex _ | .findName _ => 3
  | .testPoll _ _ left => 6 * left + 2
  | .testDeadline _ _ left => 6 * left + 1
  | _ => 1

def linesLeft (ls : List Line) : Nat := (ls.map Line.weight).sum

section
variable {g n : Nat} {s t : State} {a b : Activation} {l : Line} {ls : List Line} {op : Instr}

theorem linesLeft_append (xs ys : List Line) : linesLeft (xs ++ ys) = linesLeft xs + linesLeft ys := by
  simp [linesLeft]

/-- Two lines of tests and ten register writes of two lines each. -/
theorem linesLeft_apply (c : Codes) (dev : U32) (m : MotorModel) : linesLeft (applyLines c dev m) = 22 := by
  simp [linesLeft, Line.weight, applyLines, paramWrites, sendLines]

theorem linesLeft_pos (h : returning ls = true) : 0 < linesLeft ls := by
  cases ls with
  | nil => cases h
  | cons l ls =>
    have hl : 0 < l.weight := by cases l <;> simp [Line.weight]
    exact Nat.add_pos_left hl _

theorem returning_following (hl : l.passes g s) (hready : s.ready = true ∨ guarded (l :: ls) = true)
    (h : returning (l :: ls) = true) : returning (l.following s ls) = true := by
  cases l with
  | armDeadline | returnModel => cases h
  | returnStatus | returnBusy | returnPosition | returnUnit => cases hl
  | testPoll | testDeadline => rfl
  | tryReady skip => rw [Line.following, if_pos (ready_of_tryReady hready)]; exact h
  | rearm axis => simp only [Line.following]; split <;> exact h
  | findName name => simp only [Line.following]; split <;> exact h
  | _ => exact h

/-- A line that goes on leaves fewer to run; the last round of a wait does not go on. -/
theorem linesLeft_following (hl : l.passes g s) (hready : s.ready = true ∨ guarded (l :: ls) = true)
    (h : returning (l :: ls) = true) (hlast : ∀ dev pollMs, l ≠ .testDeadline dev pollMs 0) :
    linesLeft (l.following s ls) < linesLeft (l :: ls) := by
  have single {k : Nat} : linesLeft ls < k + 1 + linesLeft ls := Nat.lt_add_of_pos_left k.succ_pos
  cases l with
  | armDeadline | returnModel => cases h
  | returnStatus | returnBusy | returnPosition | returnUnit => cases hl
  | testPoll => simp [linesLeft, Line.following, Line.weight]
  | findIndex => simp [linesLeft, Line.following, Line.weight]; omega
  | testDeadline dev pollMs left =>
    cases left with
    | zero => exact absurd rfl (hlast dev pollMs)
    | succ left => simp [linesLeft, Line.following, Line.weight, pollLines]; omega
  | tryReady skip => rw [Line.following, if_pos (ready_of_tryReady hready)]; exact single
  | rearm axis =>
    simp only [Line.following]
    split
    · rw [linesLeft_append, linesLeft_apply]; exact Nat.add_lt_add_right (Nat.lt_succ_self 22) _
    · exact single
  | findName name =>
    simp only [Line.following]
    split
    · simp [linesLeft, Line.weight]; omega
    · exact single
  | _ => exact single

/-! ### A line does not wait -/

theorem active_ne_of_succ (hk : b.k = a.k + 1) : Slot.active b ≠ .active a := fun h => by
  cases h
  exact absurd hk (Nat.succ_ne_self _).symm

theorem advance_leaves (hs : t.slot g = .active b) (hk : b.k = a.k) : (t.advance g).slot g ≠ .active a := by
  rw [advance_of_active hs, slot_setSlot, if_pos rfl]
  exact active_ne_of_succ (congrArg (· + 1) hk)

/-- With the lock open, its answer there and no record to miss, a line goes on or ends its operation. -/
theorem runLine_leaves (hs : s.slot g = .active a) (hlock : s.lockOpen g = true)
    (hreply : l.readsReply = true → a.reply.isSome = true) (hl : l ≠ .returnModel) : (runLine g a l s).slot g ≠ .active a := by
  have ended {t : State} (ht : t.slot g = .idle) : t.slot g ≠ .active a := by rw [ht]; nofun
  have goesInto {t : State} {b : Activation} {xs : List Line} (hk : b.k = a.k) : (t.goInto g b xs).slot g ≠ .active a := by
    rw [slot_goInto, if_pos rfl]; exact active_ne_of_succ (congrArg (· + 1) hk)
  have goesOnAt {d : Dev} : (s.advanceOn g a d).slot g ≠ .active a := by
    rw [slot_advanceOn, if_pos rfl]; exact active_ne_of_succ rfl
  have reads {f : ReadBuf → State} (hl : l.readsReply = true) (hf : ∀ rx, (f rx).slot g ≠ .active a) :
      (s.onReply g a f).slot g ≠ .active a := by
    obtain ⟨x, hx⟩ := Option.isSome_iff_exists.mp (hreply hl)
    cases x with
    | ok rx => simpa only [State.onReply, hx] using hf rx
    | err e => simp [State.onReply, hx]
  cases l with
  | checkReady | checkPower | checkTransport | checkResetPin =>
    simp only [runLine]; split
    · exact advance_leaves hs rfl
    · exact ended (by simp)
  | checkSpeed | checkSteps =>
    simp only [runLine]; split
    · exact ended (by simp)
    · exact advance_leaves hs rfl
  | checkDev | checkAxis =>
    simp only [runLine]; split
    · exact goesOnAt
    · exact ended (by simp)
  | checkPowerPin =>
    simp only [runLine]; split
    · exact ended (by simp)
    · split
      · exact advance_leaves hs rfl
      · exact ended (by simp)
  | tryReady =>
    simp only [runLine]; split
    · exact advance_leaves hs rfl
    · exact goesInto rfl
  | acquireLock => rw [runLine, if_pos hlock]; exact advance_leaves hs rfl
  | emit f => rw [runLine, if_pos hlock]; exact advance_leaves ((slot_transmit ..).trans (if_pos rfl)) rfl
  | releaseLock | sleep | driveReset | setReady | switchPower | persist => exact advance_leaves hs rfl
  | setAxis => exact advance_leaves ((slot_setAxisModel ..).trans hs) rfl
  | needOk => exact reads rfl fun _ => advance_leaves hs rfl
  | testFault =>
    simp only [runLine]; split
    next hnone => cases hnone.symm ▸ hreply rfl
    next => split <;> [exact ended (by simp); exact advance_leaves hs rfl]
    next => exact advance_leaves hs rfl
  | returnStatus | returnBusy | returnPosition => exact reads rfl fun _ => ended (by simp)
  | armDeadline => simp only [runLine]; split <;> exact goesInto rfl
  | testPoll => exact reads rfl fun _ => by split <;> [exact goesInto rfl; exact ended (by simp)]
  | testDeadline dev pollMs left =>
    cases left with
    | zero => exact ended (by simp [runLine])
    | succ left => exact goesInto rfl
  | rearm =>
    simp only [runLine]; split
    · exact goesInto rfl
    · exact advance_leaves hs rfl
  | findIndex | findName =>
    simp only [runLine]; split
    · exact goesInto rfl
    · exact ended (by simp)
  | returnModel => exact absurd rfl hl
  | returnUnit => exact ended (by simp [runLine])

/-! ### A run of lines returns -/

/-- The operation `a`, of the instruction `op`, returns within `n` of its lines. -/
structure ReturnsWithin (op : Instr) (n : Nat) (s : State) (a : Activation) : Prop where
  op_eq : a.op = op
  guarded : s.ready = true ∨ guarded a.rest = true
  answers : answered a.reply.isSome a.rest = true
  returns : returning a.rest = true
  few : linesLeft a.rest ≤ n

/-- Caller `g`, whom no other holds back, has the operation `op` in progress and returns from it within `n` lines, or it has
returned. -/
structure DueWithin (g : Nat) (op : Instr) (n : Nat) (t : State) : Prop where
  lock : t.lockOpen g = true
  operation : ∀ a, t.slot g = .active a → ReturnsWithin op n t a
  returned : t.slot g = .idle → HasReturned g op t

/-- A line that goes on does so to fewer lines, of which one returns. -/
theorem ReturnsWithin.next (h : ReturnsWithin op (n + 1) s a) (hr : a.rest = l :: ls) (hl : l.passes g s)
    (hlast : ∀ dev pollMs, l ≠ .testDeadline dev pollMs 0) : ReturnsWithin op n (l.write g a s) (l.next s a ls) := by
  obtain ⟨hop, hguarded, hanswers, hreturns, hfew⟩ := h
  rw [hr] at hguarded hanswers hreturns hfew
  exact ⟨hop, guarded_following hl hguarded, answered_next hguarded hanswers, returning_following hl hguarded hreturns,
    Nat.le_of_lt_succ ((linesLeft_following hl hguarded hreturns hlast).trans_le hfew)⟩

theorem dueWithin_of_hasReturned (hlock : t.lockOpen g = true) (h : HasReturned g op t) : DueWithin g op n t :=
  ⟨hlock, fun _ ha => (nomatch h.1.symm.trans ha), fun _ => h⟩

theorem lineStep_dueWithin (h : DueWithin g op (n + 1) t) : DueWithin g op n (t.lineStep g) := by
  cases hs : t.slot g with
  | idle => simpa only [State.lineStep, hs] using dueWithin_of_hasReturned h.lock (h.returned hs)
  | active a =>
    have hdue := h.operation a hs
    obtain ⟨l, ls, hr⟩ : ∃ l ls, a.rest = l :: ls := by
      cases hr : a.rest with
      | nil => cases hr ▸ hdue.returns
      | cons l ls => exact ⟨l, ls, rfl⟩
    by_cases hlast : ∃ dev pollMs, l = .testDeadline dev pollMs 0
    · obtain ⟨dev, pollMs, rfl⟩ := hlast
      rw [lineStep_cons hs hr, ← hdue.op_eq]
      exact dueWithin_of_hasReturned h.lock (hasReturned_finish ..)
    have hleaves : (t.lineStep g).slot g ≠ .active a := by
      rw [lineStep_cons hs hr]
      refine runLine_leaves hs h.lock (fun hreads => answered_of_readsReply hreads (hr ▸ hdue.answers)) ?_
      rintro rfl
      cases hr ▸ hdue.returns
    have hres := lineStep_result g t
    generalize t.lineStep g = u at hres hleaves ⊢
    cases hres with
    | stays => exact absurd hs hleaves
    | drained b hb hnil =>
      cases hs.symm.trans hb
      cases hr.symm.trans hnil
    | ends b x xs r env hb hrest hend =>
      cases hs.symm.trans hb
      rw [← hdue.op_eq]
      exact dueWithin_of_hasReturned h.lock (hasReturned_finish ..)
    | moves b x xs env hb hrest hpass =>
      cases hs.symm.trans hb
      cases hr.symm.trans hrest
      obtain ⟨hop, hguarded, hanswers, hreturns, hfew⟩ := hdue.next hr hpass fun dev pollMs hl => hlast ⟨dev, pollMs, hl⟩
      refine ⟨write_lockOpen h.lock, fun c hc => ?_, fun hidle => ?_⟩
      · rw [slot_setSlot, if_pos rfl] at hc
        cases hc
        exact ⟨hop, hguarded, hanswers, hreturns, hfew⟩
      · rw [slot_setSlot, if_pos rfl] at hidle
        cases hidle

theorem hasReturned_runLines : ∀ {n : Nat} {t : State}, DueWithin g op n t → HasReturned g op (t.runLines n g)
  | 0, t, h => by
    cases hs : t.slot g with
    | idle => exact h.returned hs
    | active a =>
      have hdue := h.operation a hs
      exact absurd (linesLeft_pos hdue.returns) (Nat.not_lt.mpr hdue.few)
  | n + 1, t, h => by
    cases hs : t.slot g with
    | idle => simpa only [State.runLines, hs] using h.returned hs
    | active a => simpa only [State.runLines, hs] using hasReturned_runLines (lineStep_dueWithin h)

/-- An operation in progress, with lines enough to run and no other caller holding the lock, returns. -/
theorem hasReturned_running (hlock : s.lockOpen s.cur = true) (h : ReturnsWithin op n s a) (evs : List Event) (m : Nat) :
    HasReturned s.cur op ((s.running evs m a).runLines n s.cur) := by
  refine hasReturned_runLines ⟨hlock, fun b hb => ?_, fun hidle => ?_⟩
  · cases (running_slot s evs m a).symm.trans hb
    obtain ⟨hop, hguarded, hanswers, hreturns, hfew⟩ := h
    exact ⟨hop, hguarded, hanswers, hreturns, hfew⟩
  · cases (running_slot s evs m a).symm.trans hidle

end

/-! ### By the kind of operation -/

section
variable {s : State} {i : Instr} {ls : List Line}

/-- Every other operation than a wait and `get_active_model` has a line that returns, within 64 lines. -/
theorem program_returning {p : Params} (hp : program p i = some ls)
    (hwait : ∀ dev timeoutMs pollMs, i ≠ .waitWhileBusy dev timeoutMs pollMs) (hmodel : ∀ axis, i ≠ .getActiveModel axis) :
    returning ls = true ∧ linesLeft ls ≤ 64 := by
  cases i with
  | waitWhileBusy => exact absurd rfl (hwait _ _ _)
  | getActiveModel => exact absurd rfl (hmodel _)
  | applyModelParams dev m => 
    cases hp
    refine ⟨rfl, ?_⟩
    rw [applyModelParamsLines, linesLeft_append, linesLeft_apply]
    decide
  | _ => cases hp <;> exact ⟨rfl, Nat.le_of_ble_eq_true rfl⟩

theorem exec_eq_call (hp : program s.params i = some ls) (hmodel : ∀ axis, i ≠ .getActiveModel axis) : exec i s = call i ls s := by
  cases i with
  | getActiveModel => exact absurd rfl (hmodel _)
  | _ => cases hp <;> rfl

/-- An operation of a fixed number of lines returns: `callFuel` is more than it has. -/
theorem exec_returns (hs : s.slot s.cur = .idle) (hlock : s.lockOpen s.cur = true) (hp : program s.params i = some ls)
    (hwait : ∀ dev timeoutMs pollMs, i ≠ .waitWhileBusy dev timeoutMs pollMs) (hmodel : ∀ axis, i ≠ .getActiveModel axis) :
    ∃ t, exec i s = .next t ∧ HasReturned s.cur i t := by
  obtain ⟨hreturns, hfew⟩ := program_returning hp hwait hmodel
  refine ⟨_, (exec_eq_call hp hmodel).trans (call_idle hs i ls), hasReturned_running hlock ⟨rfl, ?_, ?_, hreturns, ?_⟩ _ _⟩
  · exact .inr (program_guarded hp)
  · exact program_answered hp
  · exact hfew.trans (Nat.le_add_left _ _)

/-- A wait returns: each round of it takes six lines, of which `callFuel` counts eight. -/
theorem exec_wait_returns (hs : s.slot s.cur = .idle) (hlock : s.lockOpen s.cur = true) (dev timeoutMs pollMs : U32) :
    ∃ t, exec (.waitWhileBusy dev timeoutMs pollMs) s = .next t ∧ HasReturned s.cur (.waitWhileBusy dev timeoutMs pollMs) t := by
  by_cases hd : dev.toNat < 2
  · have hdone := deadlineFor_le s timeoutMs
    have hrun := hasReturned_running (s := s.armedFor (.waitWhileBusy dev timeoutMs pollMs)) (n := 8 * s.deadlineCount + 62)
      (a := ⟨.waitWhileBusy dev timeoutMs pollMs, 2, ⟨dev.toNat, hd⟩, none,
        pollLines s.params.codes dev pollMs (s.deadlineFor timeoutMs)⟩) (by simpa using hlock)
      ⟨rfl, .inr rfl, rfl, rfl, by simp [linesLeft, pollLines, Line.weight]; omega⟩ [] 0
    rw [armedFor_cur] at hrun
    exact ⟨_, exec_waitWhileBusy hs rfl, hrun⟩
  · exact ⟨_, call_dev_outside hs (Nat.not_lt.mp hd), hasReturned_returned ..⟩

/-- `get_active_model` of an axis that has its record, or of no axis, returns (R234). -/
theorem exec_getActiveModel_returns (hs : s.slot s.cur = .idle) {axis : U32}
    (hmodel : ∀ d : Dev, axis.toNat = d.val → s.activeModel d ≠ none) :
    ∃ t, exec (.getActiveModel axis) s = .next t ∧ HasReturned s.cur (.getActiveModel axis) t := by
  obtain ⟨houtside, hinside⟩ := getActiveModelReads s axis hs
  by_cases hd : axis.toNat < 2
  · obtain ⟨m, hm⟩ := Option.ne_none_iff_exists'.mp (hmodel ⟨axis.toNat, hd⟩ rfl)
    exact ⟨_, (hinside ⟨axis.toNat, hd⟩ rfl).1 m hm, hasReturned_returned ..⟩
  · exact ⟨_, houtside (Nat.not_lt.mp hd), hasReturned_returned ..⟩

end

/-- Settles O56: an operation's lines are bounded in number, by the deadline drawn where it waits; none of them waits while the lock
is open, and one of them returns. -/
theorem hostCallsReturn : Obligations.HostCallsReturn := by
  intro s i hs hlock hi hmodel
  suffices h : ∃ t, exec i s = .next t ∧ HasReturned s.cur i t by
    obtain ⟨t, hexec, hidle, r, hresult, hlog⟩ := h
    exact ⟨t, r, hexec, hidle, hresult, hlog⟩
  by_cases hwait : ∃ dev timeoutMs pollMs, i = .waitWhileBusy dev timeoutMs pollMs
  · obtain ⟨dev, timeoutMs, pollMs, rfl⟩ := hwait
    exact exec_wait_returns hs hlock dev timeoutMs pollMs
  by_cases hget : ∃ axis, i = .getActiveModel axis
  · obtain ⟨axis, rfl⟩ := hget
    exact exec_getActiveModel_returns hs fun d => hmodel axis d rfl
  obtain ⟨ls, hp⟩ := Option.isSome_iff_exists.mp ((program_isSome s.params i).trans hi)
  exact exec_returns hs hlock hp (fun dev timeoutMs pollMs h => hwait ⟨dev, timeoutMs, pollMs, h⟩) fun axis h => hget ⟨axis, h⟩

end Sys2Proof.Machine
